-- ==== Sys2Proof/Word.lean ====
section
/-! DEFINITION. The words of the block and the small types its commands and state are made of:
bytes, addresses, command words, lines, interrupt sources, byte operands. -/

namespace Sys2Proof

/-- `DATA_WIDTH`: 8 bits (00_scope.md R7). -/
abbrev Byte := BitVec 8

/-- u16: flash addresses, command pointers, timer values (00_scope.md R7, R11). -/
abbrev Half := BitVec 16

/-- A command word, 24 bits: `U[23:20]`, `O[19:16]`, `I[15:0]` (30_encoding.md R110). -/
abbrev CmdWord := BitVec 24

/-- A serial line number, 0 or 1 (00_scope.md R8, 30_encoding.md R115). -/
inductive Line where
  | l0
  | l1
  deriving DecidableEq, Repr, Inhabited

/-- The interrupt sources and `INT` source ids: 0 = TICK, 1 = RX line 0, 2 = RX line 1
(60_exceptions.md R304, 30_encoding.md R113). -/
inductive Source where
  | tick
  | rx (k : Line)
  deriving DecidableEq, Repr, Inhabited

/-- The byte operand of format B: an immediate (`S = 0`) or the data latch (`S = 1`)
(30_encoding.md R113, R114). -/
inductive ByteOp where
  | imm (v : Byte)
  | dl
  deriving DecidableEq, Repr, Inhabited

/-- `SENTINEL`: the erased fill, 0xFF (00_scope.md R7). -/
abbrev sentinel : Byte := 0xFF

/-- `TERMINATOR`: 0x00 (00_scope.md R7). -/
abbrev terminator : Byte := 0x00

end Sys2Proof
end

