-- ==== Sys2Proof/Syntax.lean ====
section
/-! DEFINITION. The commands of the block, one constructor per row of spec/opcode_table.json
(30_encoding.md R112). -/

namespace Sys2Proof

/-- A decoded command with its operands (30_encoding.md R112, R113). The pseudo-instructions of
R121 are words of these commands and have no constructor. -/
inductive Instr where
  -- CTL, 46_control.md
  | nop
  | idle
  | reti
  -- FL, 41_flash_store.md
  | flSetaddr (a : Half)
  | flErase
  | flProg (b : ByteOp)
  | flRead
  -- NV, 41_flash_store.md
  | nvWrb (b : ByteOp)
  | nvRdb
  | nvSave (n : BitVec 5)
  | nvLoad
  -- TMR, 43_timer_tick.md
  | tmrConfig (mode : BitVec 2) (gate src : Bool)
  | tmrReload (v : Half)
  | tmrStart
  | tmrStop
  -- SER, 42_serial.md
  | serWrite (k : Line) (b : ByteOp)
  | serRead (k : Line)
  | serTxdone (k : Line)
  | serClrtx (k : Line)
  | serRxrdy (k : Line)
  | serClrrx (k : Line)
  | serConfig (k : Line) (mode : BitVec 2) (md : Bool) (baud : BitVec 2) (dbl : Bool)
  | serSendb (k : Line) (b : ByteOp)
  -- INT, 46_control.md
  | intEnall
  | intDisall
  | intEnsrc (src : Source)
  | intDissrc (src : Source)
  -- LED, 44_led.md
  | ledInit
  | ledAdvance
  -- ECHO, 45_echo.md
  | echoOnbyte (b : ByteOp)
  | echoReplay
  deriving DecidableEq, Repr

end Sys2Proof
end

