-- ==== Sys2Proof/WellFormed.lean ====
section
/-! DEFINITION. Which terms of `Instr` are commands the encoding admits. -/

namespace Sys2Proof

/-- The one operand constraint the types of `Instr` do not carry: format N5 admits `n <= 26`
(30_encoding.md R113, R117 e). The constraints of formats B and SRC (R117 d, f) hold by type. -/
def Instr.wellFormed : Instr → Bool
  | .nvSave n => decide (n.toNat ≤ 26)
  | .nop | .idle | .reti | .flSetaddr _ | .flErase | .flProg _ | .flRead | .nvWrb _ | .nvRdb
  | .nvLoad | .tmrConfig _ _ _ | .tmrReload _ | .tmrStart | .tmrStop | .serWrite _ _ | .serRead _
  | .serTxdone _ | .serClrtx _ | .serRxrdy _ | .serClrrx _ | .serConfig _ _ _ _ _ | .serSendb _ _
  | .intEnall | .intDisall | .intEnsrc _ | .intDissrc _ | .ledInit | .ledAdvance | .echoOnbyte _
  | .echoReplay => true

end Sys2Proof
end

