-- ==== Sys2Proof/Decode.lean ====
section
/-! DEFINITION. The decoder of command words, total and rejecting by name, and the encoder, both
written from 30_encoding.md R110-R117. -/

namespace Sys2Proof

/-- Why a word is `ILLEGAL`: the clauses of 30_encoding.md R117. -/
inductive Illegal where
  /-- (a) `U` in 0x9-0xF -/
  | reservedUnit
  /-- (b) `(U, O)` is no row of R112 -/
  | unallocated
  /-- (c) a reserved operand bit is 1 -/
  | reservedBits
  /-- (d) format B with `S = 1` and `imm8 != 0` -/
  | latchWithImmediate
  /-- (e) format N5 with `n > 26` -/
  | lengthTooLong
  /-- (f) format SRC with `src = 3` -/
  | noSuchSource
  deriving DecidableEq, Repr

/-- `U = w[23:20]` (R110). -/
def unitOf (w : CmdWord) : BitVec 4 := w.extractLsb' 20 4

/-- `O = w[19:16]` (R110). -/
def opOf (w : CmdWord) : BitVec 4 := w.extractLsb' 16 4

/-- `I = w[15:0]` (R110). -/
def operandOf (w : CmdWord) : Half := w.extractLsb' 0 16

/-- Format Z: all 16 bits reserved (R113). -/
def decodeZ (x : Half) (i : Instr) : Except Illegal Instr :=
  if x = 0 then .ok i else .error .reservedBits

/-- Format B (R113): `I[15:9]` reserved, `S = I[8]`, `imm8 = I[7:0]`. -/
def decodeB (x : Half) (mk : ByteOp → Instr) : Except Illegal Instr :=
  if x.extractLsb' 9 7 ≠ 0 then .error .reservedBits
  else if x.getLsbD 8 then
    if x.extractLsb' 0 8 = 0 then .ok (mk .dl) else .error .latchWithImmediate
  else .ok (mk (.imm (x.extractLsb' 0 8)))

/-- Format N5 (R113): `I[15:5]` reserved, `n = I[4:0] <= 26`. -/
def decodeN5 (x : Half) (mk : BitVec 5 → Instr) : Except Illegal Instr :=
  if x.extractLsb' 5 11 ≠ 0 then .error .reservedBits
  else if 26 < (x.extractLsb' 0 5).toNat then .error .lengthTooLong
  else .ok (mk (x.extractLsb' 0 5))

/-- Format SRC (R113): `I[15:2]` reserved, `src = I[1:0]`, 3 illegal. -/
def decodeSrc (x : Half) (mk : Source → Instr) : Except Illegal Instr :=
  if x.extractLsb' 2 14 ≠ 0 then .error .reservedBits
  else
    match (x.extractLsb' 0 2).toNat with
    | 0 => .ok (mk .tick)
    | 1 => .ok (mk (.rx .l0))
    | 2 => .ok (mk (.rx .l1))
    | _ => .error .noSuchSource

/-- Format TCFG (R113): `I[15:4]` reserved, `MODE = I[1:0]`, `GATE = I[2]`, `SRC = I[3]`. -/
def decodeTcfg (x : Half) : Except Illegal Instr :=
  if x.extractLsb' 4 12 ≠ 0 then .error .reservedBits
  else .ok (.tmrConfig (x.extractLsb' 0 2) (x.getLsbD 2) (x.getLsbD 3))

/-- Format SCFG (R113): `I[15:6]` reserved, `MODE = I[1:0]`, `MD = I[2]`, `BAUDSRC = I[4:3]`,
`DBL = I[5]`. -/
def decodeScfg (k : Line) (x : Half) : Except Illegal Instr :=
  if x.extractLsb' 6 10 ≠ 0 then .error .reservedBits
  else .ok (.serConfig k (x.extractLsb' 0 2) (x.getLsbD 2) (x.extractLsb' 3 2) (x.getLsbD 5))

/-- Unit 0x0 (R112). -/
def decodeCtl (o : Nat) (x : Half) : Except Illegal Instr :=
  match o with
  | 0 => decodeZ x .nop
  | 1 => decodeZ x .idle
  | 2 => decodeZ x .reti
  | _ => .error .unallocated

/-- Unit 0x1 (R112). -/
def decodeFl (o : Nat) (x : Half) : Except Illegal Instr :=
  match o with
  | 1 => .ok (.flSetaddr x)
  | 2 => decodeZ x .flErase
  | 3 => decodeB x .flProg
  | 4 => decodeZ x .flRead
  | _ => .error .unallocated

/-- Unit 0x2 (R112); `O = 1` and `O = 2` are deliberately unallocated. -/
def decodeNv (o : Nat) (x : Half) : Except Illegal Instr :=
  match o with
  | 3 => decodeB x .nvWrb
  | 4 => decodeZ x .nvRdb
  | 5 => decodeN5 x .nvSave
  | 6 => decodeZ x .nvLoad
  | _ => .error .unallocated

/-- Unit 0x3 (R112). -/
def decodeTmr (o : Nat) (x : Half) : Except Illegal Instr :=
  match o with
  | 1 => decodeTcfg x
  | 2 => .ok (.tmrReload x)
  | 3 => decodeZ x .tmrStart
  | 4 => decodeZ x .tmrStop
  | _ => .error .unallocated

/-- Units 0x4 and 0x5, line `L = U[0]` (R112, R115). -/
def decodeSer (k : Line) (o : Nat) (x : Half) : Except Illegal Instr :=
  match o with
  | 1 => decodeB x (.serWrite k)
  | 2 => decodeZ x (.serRead k)
  | 3 => decodeZ x (.serTxdone k)
  | 4 => decodeZ x (.serClrtx k)
  | 5 => decodeZ x (.serRxrdy k)
  | 6 => decodeZ x (.serClrrx k)
  | 7 => decodeScfg k x
  | 8 => decodeB x (.serSendb k)
  | _ => .error .unallocated

/-- Unit 0x6 (R112). -/
def decodeInt (o : Nat) (x : Half) : Except Illegal Instr :=
  match o with
  | 1 => decodeZ x .intEnall
  | 2 => decodeZ x .intDisall
  | 3 => decodeSrc x .intEnsrc
  | 4 => decodeSrc x .intDissrc
  | _ => .error .unallocated

/-- Unit 0x7 (R112). -/
def decodeLed (o : Nat) (x : Half) : Except Illegal Instr :=
  match o with
  | 1 => decodeZ x .ledInit
  | 2 => decodeZ x .ledAdvance
  | _ => .error .unallocated

/-- Unit 0x8 (R112). -/
def decodeEcho (o : Nat) (x : Half) : Except Illegal Instr :=
  match o with
  | 1 => decodeB x .echoOnbyte
  | 2 => decodeZ x .echoReplay
  | _ => .error .unallocated

/-- The decoder: total on the 2^24 words (R116). It selects the row by `(U, O)` and then checks the
operand format. -/
def decode (w : CmdWord) : Except Illegal Instr :=
  let o := (opOf w).toNat
  let x := operandOf w
  match (unitOf w).toNat with
  | 0 => decodeCtl o x
  | 1 => decodeFl o x
  | 2 => decodeNv o x
  | 3 => decodeTmr o x
  | 4 => decodeSer .l0 o x
  | 5 => decodeSer .l1 o x
  | 6 => decodeInt o x
  | 7 => decodeLed o x
  | 8 => decodeEcho o x
  | _ => .error .reservedUnit

/-- The word `U ++ O ++ I` (R110). -/
def wordOf (u o : BitVec 4) (x : Half) : CmdWord := u ++ o ++ x

/-- Format B (R113). -/
def encodeB : ByteOp → Half
  | .imm v => 0#8 ++ v
  | .dl => 0x0100

/-- Format SRC (R113, 60_exceptions.md R304). -/
def encodeSrc : Source → Half
  | .tick => 0
  | .rx .l0 => 1
  | .rx .l1 => 2

/-- Format TCFG (R113). -/
def encodeTcfg (mode : BitVec 2) (gate src : Bool) : Half :=
  0#12 ++ BitVec.ofBool src ++ BitVec.ofBool gate ++ mode

/-- Format SCFG (R113). -/
def encodeScfg (mode : BitVec 2) (md : Bool) (baud : BitVec 2) (dbl : Bool) : Half :=
  0#10 ++ BitVec.ofBool dbl ++ baud ++ BitVec.ofBool md ++ mode

/-- The `SER` unit of a line: `U = 0x4 + L` (R112, R115). -/
def serUnit : Line → BitVec 4
  | .l0 => 0x4
  | .l1 => 0x5

/-- The encoder (R112, R113). -/
def encode : Instr → CmdWord
  | .nop => wordOf 0x0 0x0 0
  | .idle => wordOf 0x0 0x1 0
  | .reti => wordOf 0x0 0x2 0
  | .flSetaddr a => wordOf 0x1 0x1 a
  | .flErase => wordOf 0x1 0x2 0
  | .flProg b => wordOf 0x1 0x3 (encodeB b)
  | .flRead => wordOf 0x1 0x4 0
  | .nvWrb b => wordOf 0x2 0x3 (encodeB b)
  | .nvRdb => wordOf 0x2 0x4 0
  | .nvSave n => wordOf 0x2 0x5 (0#11 ++ n)
  | .nvLoad => wordOf 0x2 0x6 0
  | .tmrConfig mode gate src => wordOf 0x3 0x1 (encodeTcfg mode gate src)
  | .tmrReload v => wordOf 0x3 0x2 v
  | .tmrStart => wordOf 0x3 0x3 0
  | .tmrStop => wordOf 0x3 0x4 0
  | .serWrite k b => wordOf (serUnit k) 0x1 (encodeB b)
  | .serRead k => wordOf (serUnit k) 0x2 0
  | .serTxdone k => wordOf (serUnit k) 0x3 0
  | .serClrtx k => wordOf (serUnit k) 0x4 0
  | .serRxrdy k => wordOf (serUnit k) 0x5 0
  | .serClrrx k => wordOf (serUnit k) 0x6 0
  | .serConfig k mode md baud dbl => wordOf (serUnit k) 0x7 (encodeScfg mode md baud dbl)
  | .serSendb k b => wordOf (serUnit k) 0x8 (encodeB b)
  | .intEnall => wordOf 0x6 0x1 0
  | .intDisall => wordOf 0x6 0x2 0
  | .intEnsrc src => wordOf 0x6 0x3 (encodeSrc src)
  | .intDissrc src => wordOf 0x6 0x4 (encodeSrc src)
  | .ledInit => wordOf 0x7 0x1 0
  | .ledAdvance => wordOf 0x7 0x2 0
  | .echoOnbyte b => wordOf 0x8 0x1 (encodeB b)
  | .echoReplay => wordOf 0x8 0x2 0

/-- A word written as three bytes, the most significant first, as the spec's listings write it
(20_memory.md R82). -/
def wordOfListing (b2 b1 b0 : Byte) : CmdWord := b2 ++ b1 ++ b0

/-- The command our decoder reads from a word given as a number. Every command is one 24-bit word
(30_encoding.md R119), so the number is the word; bits above `nbits` are 0. -/
def decodeTableWord (nbits w : Nat) : Option Instr :=
  match decode (BitVec.ofNat 24 (w % 2 ^ nbits)) with
  | .ok i => some i
  | .error _ => none

end Sys2Proof
end

