-- ==== Sys2Proof/Config.lean ====
section
/-! DEFINITION. What an implementation fixes (the parameters the spec leaves OPEN), the moves by
which the agents of a run take turns, and the free values. -/

namespace Sys2Proof

/-- `N_LINES`, 1 or 2 (00_scope.md R8). -/
inductive LineCount where
  | one
  | two
  deriving DecidableEq, Repr, Inhabited

/-- `LED_VARIANT` (00_scope.md R8). -/
inductive LedVariant where
  | fixed
  | breathing
  deriving DecidableEq, Repr, Inhabited

/-- The parameters of a run that the source leaves OPEN (00_scope.md R8), but for `ROM`, which is a
field of the state. The model takes each as an argument: a state carries them, and no step
changes them (log 1). -/
structure Params where
  /-- `N_LINES` -/
  nLines : LineCount
  /-- `ECHO_LINE` -/
  echoLine : Line
  /-- `LED_VARIANT` -/
  ledVariant : LedVariant
  /-- `LED_ACTIVE_HIGH` -/
  ledActiveHigh : Bool
  /-- `F_OSC`; `TICK_RELOAD` is meant to be `F_OSC / PRESCALER / 1000` -/
  fOsc : Nat
  /-- `PRESCALER` -/
  prescaler : Nat
  /-- `TICK_RELOAD` -/
  tickReload : Half
  /-- `REGION_BASE` -/
  regionBase : Half
  /-- `REGION_SIZE` -/
  regionSize : Nat
  /-- `SECTOR_SIZE` -/
  sectorSize : Nat
  /-- `SLOT_ADDR` -/
  slotAddr : Half
  /-- `FLASH_WAIT`, timing only: no rule of a step reads it -/
  flashWait : Nat
  /-- `PRIO_TICK` -/
  prioTick : Fin 2
  /-- `PRIO_RX` -/
  prioRx : Fin 2
  /-- `LINE_CONNECTED[0]`, fairness only (42_serial.md R194) -/
  connected0 : Bool
  /-- `LINE_CONNECTED[1]`, fairness only -/
  connected1 : Bool
  deriving DecidableEq, Repr, Inhabited

/-- One turn of a run: which agent steps, with the choices the spec leaves open to that step
(00_scope.md R14). -/
inductive Move where
  /-- the CPU takes a micro-step and accepts no interrupt (46_control.md R281) -/
  | cpu
  /-- the CPU enters this source, if it may (60_exceptions.md R305, R306) -/
  | accept (src : Source)
  /-- TimerClock: one timer clock event (43_timer_tick.md R216) -/
  | timer
  /-- Line k completes its transmission (42_serial.md R194) -/
  | lineTx (k : Line)
  /-- Line k delivers byte `b` (42_serial.md R195). `received`: on an unconfigured line, whether the
  byte is received or dropped. `newest`: on an overrun, whether the new byte replaces the old -/
  | lineRx (k : Line) (b : Byte) (received newest : Bool)
  /-- FlashEngine completes the operation in flight (41_flash_store.md R147) -/
  | flash
  /-- Power: a power cycle (70_reset_and_hazards.md R341) -/
  | power
  deriving DecidableEq, Repr, Inhabited

/-- Free value (log 4): the `n`th draw of a byte. Nothing constrains it
(41_flash_store.md R141, 70_reset_and_hazards.md R341). -/
opaque Config.freeByte : Nat → Byte

/-- Free value (log 4): the `n`th draw of a 16-bit value, `T_CNT` at reset (10_state.md R47). -/
opaque Config.freeHalf : Nat → Half

/-- Free value (log 2): the mover of the step numbered `n`, where the state's plan names none.
The spec leaves the order of the agents open (00_scope.md R14, 20_memory.md R92). -/
opaque Config.freeMove : Nat → Move

end Sys2Proof
end

