-- ==== Sys2Proof/Machine/ResetValues.lean ====
section
/-! DEFINITION. What a launch and a reset put into the machine beyond plain zeros: the example
parameters, the default command ROM, the LED arm values. -/

namespace Sys2Proof.Machine

/-- The example configuration EX of 95_test_vectors.md, the parameters `State.reset` carries
(DESIGN CHOICE, log 1). `F_OSC`, `PRESCALER` and `FLASH_WAIT`, which EX does not give, are chosen
so that `TICK_RELOAD` is `F_OSC / PRESCALER / 1000`. -/
def exampleParams : Params where
  nLines := .one
  echoLine := .l0
  ledVariant := .fixed
  ledActiveHigh := true
  fOsc := 12000000
  prescaler := 12
  tickReload := 1000
  regionBase := 0
  regionSize := 0x400
  sectorSize := 0x200
  slotAddr := 0
  flashWait := 0
  prioTick := 1
  prioRx := 0
  connected0 := true
  connected1 := true

/-- `RESET_ENTRY` (10_state.md R33). -/
def resetEntry : Half := 0x0000

/-- `TICK_VECTOR` (10_state.md R33). -/
def tickVector : Half := 0x0010

/-- `RX_VECTOR` (10_state.md R33). -/
def rxVector : Half := 0x0020

/-- The boot program, ROM addresses 0x0000-0x000A (70_reset_and_hazards.md R345). -/
def bootProgram (l : Line) (reload : Half) : List CmdWord :=
  [0x620000, 0x710000,
   (match l with | .l0 => 0x470001 | .l1 => 0x570001),
   0x310001, 0x32#8 ++ reload, 0x330000, 0x630000, 0x610000, 0x820000,
   (match l with | .l0 => 0x630001 | .l1 => 0x630002),
   0x010000]

/-- The tick handler, ROM addresses 0x0010-0x0012 (43_timer_tick.md R220). -/
def tickHandler (reload : Half) : List CmdWord :=
  [0x32#8 ++ reload, 0x720000, 0x020000]

/-- The RX handler, ROM addresses 0x0020-0x0025 (45_echo.md R262). -/
def rxHandler (l : Line) : List CmdWord :=
  match l with
  | .l0 => [0x640001, 0x420000, 0x460000, 0x810100, 0x630001, 0x020000]
  | .l1 => [0x640002, 0x520000, 0x560000, 0x810100, 0x630002, 0x020000]

/-- The default ROM for these parameters, of the least size `ROM_SIZE = 0x0026`
(70_reset_and_hazards.md R345). -/
def defaultRom (p : Params) : List CmdWord :=
  bootProgram p.echoLine p.tickReload ++ List.replicate 5 0x000000 ++
  tickHandler p.tickReload ++ List.replicate 13 0x000000 ++
  rxHandler p.echoLine

/-- `LIT_REM` as reset and `LED.INIT` arm it (10_state.md R47, 44_led.md R232). -/
def litArm : LedVariant → Half
  | .fixed => 1000
  | .breathing => 5000

/-- `OFF_TICKS` (00_scope.md R7). -/
def offTicks : Half := 1000

/-- `LIT_TICKS_FIXED` (00_scope.md R7). -/
def litTicksFixed : Half := 1000

end Sys2Proof.Machine
end

