-- ==== Sys2Proof/Machine/State.lean ====
section
/-! DEFINITION. The state of the block as plain data, its fault and refusal reasons, and the state
after reset (10_state.md). -/

namespace Sys2Proof.Machine

/-- `kind` of a context frame (10_state.md R34). -/
inductive FrameKind where
  | main
  | tick
  | rx
  deriving DecidableEq, Repr

/-- What every fault and refusal records: the stopping frame's `kind` and `pc`
(60_exceptions.md R301, R302). -/
structure FrameInfo where
  kind : FrameKind
  pc : Half
  deriving DecidableEq, Repr

/-- `FL_OP`, the flash operation in flight (10_state.md R39). -/
inductive FlashOp where
  /-- `Erase(sector_base)` -/
  | erase (base : Nat)
  /-- `Program(a, v)` -/
  | program (a : Nat) (v : Byte)
  deriving DecidableEq, Repr

/-- Why the machine stops with a fault (60_exceptions.md R301). Each marks a departure from every
behaviour the source defines, and stops every agent (R300). All are safe: the model stops where the
chip would do something the sources do not say. -/
inductive Fault where
  /-- code 1, raised by FL.ERASE, FL.PROG, FL.READ, NV.WRB, NV.RDB: the cursor is undef. Safe. -/
  | cursorUndef (f : FrameInfo)
  /-- code 2, raised by FL.ERASE, FL.PROG, FL.READ, NV.WRB, NV.RDB: address `a` is outside the
  region. Safe. -/
  | flashAddr (f : FrameInfo) (a : Half)
  /-- code 3, raised by every flash-accessing command: an operation is in flight. Safe. -/
  | flashBusy (f : FrameInfo) (op : Option FlashOp)
  /-- code 4, raised by SER.WRITE, SER.SENDB, ECHO.ONBYTE, ECHO.REPLAY: a byte is in flight on the
  line. Safe. -/
  | txBusy (f : FrameInfo) (k : Line)
  /-- code 5, raised by every format-B command: the operand is `DL` and `DL` is undef. Safe. -/
  | dlUndef (f : FrameInfo)
  /-- code 6, raised by NV.SAVE (and by ECHO.REPLAY, log 13): buffer entry `i` is undef. Safe. -/
  | bufUndef (f : FrameInfo) (i : Nat)
  /-- code 7, raised by ECHO.ONBYTE with a letter and ECHO.REPLAY: an echo is in flight. Safe. -/
  | echoReentry (f : FrameInfo)
  /-- code 8, raised by ECHO.ONBYTE's capacity guard, never reached. Safe. -/
  | echoOverflow (f : FrameInfo) (len : Nat)
  /-- code 9, raised by CTL.RETI in the main context. Safe. -/
  | retiNoHandler (f : FrameInfo)
  /-- code 10, raised by command fetch: `pc >= ROM_SIZE`. Safe. -/
  | pcOutOfRom (f : FrameInfo) (pc : Half)
  /-- code 11, raised by TMR.START: the timer is unconfigured. Safe. -/
  | timerUnconfig (f : FrameInfo)
  /-- code 12, raised by SER.WRITE, SER.SENDB, ECHO.ONBYTE, ECHO.REPLAY: the line is unconfigured.
  Safe. -/
  | lineUnconfig (f : FrameInfo) (k : Line)
  /-- code 13, raised by interrupt entry: the RX interrupt of a line other than ECHO_LINE. Safe. -/
  | noHandler (f : FrameInfo) (k : Line)
  /-- no code of the spec (DESIGN CHOICE, log 12), raised by NV.SAVE and NV.LOAD in progress: another
  context moved the cursor out of the region. Safe. -/
  | cursorLost (f : FrameInfo) (a : Option Half)
  deriving DecidableEq, Repr

/-- Why the machine has no meaning for a command (60_exceptions.md R302). All are safe: the model
stops. -/
inductive Refusal where
  /-- raised by exec's arms for a command that has no meaning yet. Safe. -/
  | notModelled (mnemonic : String)
  /-- raised by command fetch: the word is ILLEGAL (30_encoding.md R117). Safe. -/
  | illegalEncoding (f : FrameInfo)
  /-- raised by TMR.CONFIG and SER.CONFIG: a value other than the admitted one. Safe. -/
  | configNotModelled (f : FrameInfo)
  /-- raised by the SER commands and INT.ENSRC, INT.DISSRC: line 1 with N_LINES = 1. Safe. -/
  | noSuchLine (f : FrameInfo)
  deriving DecidableEq, Repr

/-- The next micro-step of a `SER.SENDB` whose M1 is done (42_serial.md R187). -/
inductive SendPos where
  | m2
  | m3
  deriving DecidableEq, Repr

/-- The next micro-step of an `NV.SAVE` whose S1 is done, with its local `i`
(41_flash_store.md R150); at S2, `i = 0`. -/
inductive SavePos where
  | s2
  | s3 (i : Nat)
  | s4 (i : Nat)
  deriving DecidableEq, Repr

/-- The next micro-step of an `NV.LOAD` whose L1 is done, with its locals `k` and `cur`
(41_flash_store.md R152). -/
inductive LoadPos where
  | l2 (k : Fin 27) (cur : Byte)
  | l3 (k : Fin 27)
  deriving DecidableEq, Repr

/-- The next micro-step of an `ECHO.ONBYTE` whose E1 is done, with its local `i`
(45_echo.md R252). The local `c` is `start + i` and `t` is `start + len - 1` (log 14). -/
inductive EchoPos where
  /-- E2 up to its `SER.SENDB`'s M1 -/
  | e2 (i : Nat)
  /-- inside E2's `SER.SENDB` -/
  | e2Send (i : Nat) (p : SendPos)
  | e3 (i : Nat)
  /-- E4 up to its `NV.SAVE`'s S1 -/
  | e4
  /-- inside E4's `NV.SAVE` -/
  | e4Save (p : SavePos)
  | e5
  deriving DecidableEq, Repr

/-- The next micro-step of an `ECHO.REPLAY` whose P0 is done, with its local `j`
(45_echo.md R256). -/
inductive ReplayPos where
  /-- P1 up to its `NV.LOAD`'s L1 -/
  | p1
  /-- inside P1's `NV.LOAD` -/
  | p1Load (p : LoadPos)
  | p2
  | p3 (j : Nat)
  /-- inside P3's `SER.SENDB` -/
  | p3Send (j : Nat) (p : SendPos)
  | p4
  deriving DecidableEq, Repr

/-- `MicroState`: the progress of a composite command (10_state.md R34, 00_scope.md R13). -/
inductive Micro where
  | sendb (k : Line) (p : SendPos)
  /-- FL.ERASE at M2 -/
  | flErase
  /-- FL.PROG at M2 -/
  | flProg
  /-- NV.WRB at M2 -/
  | nvWrb
  | nvSave (n : Nat) (p : SavePos)
  | nvLoad (p : LoadPos)
  | onbyte (start : Byte) (len : Nat) (p : EchoPos)
  | replay (p : ReplayPos)
  deriving DecidableEq, Repr

/-- What every context frame holds: `pc` and `micro` (10_state.md R34). -/
structure Ctx where
  /-- the command pointer (R35) -/
  pc : Half
  /-- the pointer has stepped past 0xFFFF, so that it never wraps (DESIGN CHOICE, log 9) -/
  past : Bool
  /-- `none` between commands -/
  micro : Option Micro
  deriving DecidableEq, Repr

/-- `kind` of a handler frame, with the line of an RX frame (10_state.md R34). -/
inductive HandlerKind where
  | tick
  | rx (k : Line)
  deriving DecidableEq, Repr

/-- A handler frame (10_state.md R34). -/
structure Handler where
  kind : HandlerKind
  level : Fin 2
  ctx : Ctx
  savedDL : Option Byte
  deriving DecidableEq, Repr

/-- `IEN` (10_state.md R36): bit 0 `EA`, 1 `IE_TICK`, 2 `IE_RX0`, 3 `IE_RX1`. -/
structure Ien where
  ea : Bool
  tick : Bool
  rx0 : Bool
  rx1 : Bool
  deriving DecidableEq, Repr

/-- The timer configuration record (10_state.md R37). -/
structure TmrCfg where
  mode : BitVec 2
  gate : Bool
  src : Bool
  deriving DecidableEq, Repr

/-- The serial configuration record (10_state.md R38). -/
structure SerCfg where
  mode : BitVec 2
  md : Bool
  baud : BitVec 2
  dbl : Bool
  deriving DecidableEq, Repr

/-- The registers of one serial line (10_state.md R38); `none` is `unconfigured` or `undef`. -/
structure LineState where
  cfg : Option SerCfg
  txData : Option Byte
  txBusy : Bool
  ti : Bool
  rxData : Option Byte
  ri : Bool
  deriving DecidableEq, Repr

/-- The flash array (10_state.md R40). `cells` lists the bytes that are not 0xFF, `stale` the
addresses that are not fresh, each strictly rising: an address in neither reads 0xFF and is
fresh (log 5). -/
structure Memory where
  cells : List Host.Cell
  stale : List Nat
  deriving DecidableEq, Repr

/-- `LED_STATE` (10_state.md R41). -/
inductive LedState where
  | lit
  | unlit
  deriving DecidableEq, Repr

/-- `DUTY`, one of 1 to 5 (10_state.md R41). -/
inductive Duty where
  | d1
  | d2
  | d3
  | d4
  | d5
  deriving DecidableEq, Repr

/-- The observable events (10_state.md R58). -/
inductive Event where
  | tx (k : Line) (b : Byte)
  | rx (k : Line) (b : Byte)
  | led (level : Bool)
  | powerLoss
  | powerOn
  deriving DecidableEq, Repr

/-- The state of the block. `none` in a field that holds a value is the spec's `undef`
(00_scope.md R12, log 7). -/
structure State where
  /-- the parameters of the run (00_scope.md R8); no step changes them (log 1) -/
  cfg : Params
  /-- the command ROM; `ROM_SIZE` is its length (10_state.md R33) -/
  rom : List CmdWord
  /-- the main context's frame, the bottom of the stack (10_state.md R32) -/
  main : Ctx
  /-- the handler frames above it, top first (10_state.md R32) -/
  handlers : List Handler
  /-- `DL` (10_state.md R31) -/
  dl : Option Byte
  /-- `IEN` (10_state.md R36) -/
  ien : Ien
  /-- `TMR_CFG` (10_state.md R37) -/
  tmrCfg : Option TmrCfg
  /-- `T_CNT` -/
  tCnt : Half
  /-- `T_RUN` -/
  tRun : Bool
  /-- `TF` -/
  tf : Bool
  /-- line 0 (10_state.md R38) -/
  line0 : LineState
  /-- line 1; without meaning when `N_LINES = 1` -/
  line1 : LineState
  /-- `ADDR`, the cursor (10_state.md R39) -/
  addr : Option Half
  /-- `FL_BUSY` -/
  flBusy : Bool
  /-- `FL_OP` -/
  flOp : Option FlashOp
  /-- `FLASH` and `FRESH` (10_state.md R40) -/
  mem : Memory
  /-- `LED_STATE` (10_state.md R41) -/
  ledState : LedState
  /-- `LIT_REM` -/
  litRem : Half
  /-- `OFF_REM` -/
  offRem : Half
  /-- `DUTY` -/
  duty : Duty
  /-- `LED_ON` -/
  ledOn : Bool
  /-- `ECHO_BUF` (10_state.md R42) -/
  echoBuf : Vector (Option Byte) 27
  /-- `ECHO_BUSY` -/
  echoBusy : Bool
  /-- `LOAD_PRESENT` (10_state.md R43) -/
  loadPresent : Bool
  /-- `LOAD_LEN`, 0 to 27 -/
  loadLen : Fin 28
  /-- `LOAD_BUF` -/
  loadBuf : Vector (Option Byte) 27
  /-- `FAULT` (10_state.md R44) -/
  fault : Option Fault
  /-- `REFUSED` (10_state.md R44) -/
  refused : Option Refusal
  /-- the observation trace, oldest event first (10_state.md R58) -/
  trace : List Event
  /-- the model's own: the moves still to come; when none is left the mover is free (log 2) -/
  plan : List Move
  /-- the model's own: the number of the next free value (log 4) -/
  draws : Nat
  deriving DecidableEq, Repr

/-- A line's registers after reset (10_state.md R47). -/
def lineReset : LineState where
  cfg := none
  txData := none
  txBusy := false
  ti := false
  rxData := none
  ri := false

/-- Every element at its reset value (10_state.md R47), around what a reset keeps: the parameters,
the ROM, the flash array, the trace, and the model's own plan and draw counter. `T_CNT` is the draw
numbered `draws`. -/
def State.atReset (cfg : Params) (rom : List CmdWord) (mem : Memory) (trace : List Event)
    (plan : List Move) (draws : Nat) : State where
  cfg := cfg
  rom := rom
  main := { pc := resetEntry, past := false, micro := none }
  handlers := []
  dl := none
  ien := { ea := false, tick := false, rx0 := false, rx1 := false }
  tmrCfg := none
  tCnt := Config.freeHalf draws
  tRun := false
  tf := false
  line0 := lineReset
  line1 := lineReset
  addr := none
  flBusy := false
  flOp := none
  mem := mem
  ledState := .lit
  litRem := litArm cfg.ledVariant
  offRem := offTicks
  duty := .d4
  ledOn := true
  echoBuf := Vector.replicate 27 none
  echoBusy := false
  loadPresent := false
  loadLen := 0
  loadBuf := Vector.replicate 27 none
  fault := none
  refused := none
  trace := trace
  plan := plan
  draws := draws + 1

/-- The premise **FactoryErased**: every byte 0xFF and fresh (70_reset_and_hazards.md R342). -/
def Memory.erased : Memory where
  cells := []
  stale := []

/-- First power-on with these parameters, this ROM and this flash content
(70_reset_and_hazards.md R340, R342). -/
def State.launch (cfg : Params) (rom : List CmdWord) (mem : Memory) : State :=
  State.atReset cfg rom mem [] [] 0

/-- The machine right after reset: a FactoryErased launch of the default ROM with the example
parameters (log 1, log 5). -/
def State.reset : State := State.launch exampleParams (defaultRom exampleParams) Memory.erased

end Sys2Proof.Machine
end

