-- ==== Sys2Proof/Machine/Ops.lean ====
section
/-! DEFINITION. The named operations over parameters, flash memory, context frames, lines and the
LED, and taking an interrupt and returning from one. -/

namespace Sys2Proof

/-- Line `k` exists: `k < N_LINES` (30_encoding.md R115). -/
def Params.hasLine (p : Params) : Line → Bool
  | .l0 => true
  | .l1 => p.nLines == .two

/-- The address is in the flash region (20_memory.md R84). -/
def Params.inRegion (p : Params) (a : Nat) : Bool :=
  decide (p.regionBase.toNat ≤ a) && decide (a < p.regionBase.toNat + p.regionSize)

/-- `sector_base(a)` (20_memory.md R85). -/
def Params.sectorBase (p : Params) (a : Nat) : Nat :=
  p.regionBase.toNat + (a - p.regionBase.toNat) / p.sectorSize * p.sectorSize

/-- `pin(v)`, the level of the LED pin for the logical output `v` (44_led.md R233). -/
def Params.pin (p : Params) (v : Bool) : Bool :=
  if p.ledActiveHigh then v else !v

namespace Machine

/-- What a meaning answers. -/
abbrev Result := Host.Outcome State Fault Refusal

/-! ### Flash memory (10_state.md R40) -/

/-- Puts byte `v` at address `a`, keeping the canonical form. -/
def cellPut (a : Nat) (v : Byte) : List Host.Cell → List Host.Cell
  | [] => if v = sentinel then [] else [(a, v)]
  | c :: cs =>
    if a < c.1 then (if v = sentinel then c :: cs else (a, v) :: c :: cs)
    else if a = c.1 then (if v = sentinel then cs else (a, v) :: cs)
    else c :: cellPut a v cs

/-- Adds address `a` to a strictly rising list. -/
def staleAdd (a : Nat) : List Nat → List Nat
  | [] => [a]
  | b :: bs =>
    if a < b then a :: b :: bs else if a = b then b :: bs else b :: staleAdd a bs

/-- `FlashRead(a)`, the content of byte `a` (00_scope.md R12). An unlisted byte reads 0xFF
(log 5). -/
def Memory.read (m : Memory) (a : Nat) : Byte :=
  (m.cells.lookup a).getD sentinel

/-- `FRESH[a]` (10_state.md R40). -/
def Memory.fresh (m : Memory) (a : Nat) : Bool :=
  !m.stale.contains a

/-- Byte `a` holds `v` and is not fresh. -/
def Memory.put (m : Memory) (a : Nat) (v : Byte) : Memory where
  cells := cellPut a v m.cells
  stale := staleAdd a m.stale

/-- `FlashProgram(a, v)`, `d` being the draw (41_flash_store.md R141). -/
def Memory.program (m : Memory) (a : Nat) (v d : Byte) : Memory :=
  m.put a (if m.fresh a then v else d)

/-- `FlashEraseSector` of the `n` bytes from `base` (41_flash_store.md R143). -/
def Memory.erase (m : Memory) (base n : Nat) : Memory where
  cells := m.cells.filter fun c => !(decide (base ≤ c.1) && decide (c.1 < base + n))
  stale := m.stale.filter fun a => !(decide (base ≤ a) && decide (a < base + n))

/-- The `n` bytes from `base` take the draws numbered `d`, `d + 1`, .. and are not fresh
(70_reset_and_hazards.md R341). -/
def Memory.scramble (m : Memory) (base d : Nat) : Nat → Memory
  | 0 => m
  | n + 1 => (m.scramble base d n).put (base + n) (Config.freeByte (d + n))

/-- The canonical form: addresses strictly rising, no entry equal to what an unlisted address reads
as. -/
abbrev Memory.wf (m : Memory) : Prop :=
  m.cells.Pairwise (fun x y => x.1 < y.1) ∧ (∀ c ∈ m.cells, c.2 ≠ sentinel) ∧
  m.stale.Pairwise (· < ·)

/-! ### Context frames (10_state.md R32, R34) -/

/-- The executing frame's pc and micro: the top of the stack. -/
def State.ctx (s : State) : Ctx :=
  match s.handlers with
  | [] => s.main
  | h :: _ => h.ctx

/-- Replaces the executing frame's pc and micro. -/
def State.setCtx (s : State) (c : Ctx) : State :=
  { s with
    main := (match s.handlers with | [] => c | _ :: _ => s.main)
    handlers := (match s.handlers with | [] => [] | h :: hs => { h with ctx := c } :: hs) }

/-- `kind` of the executing frame. -/
def State.kind (s : State) : FrameKind :=
  match s.handlers with
  | [] => .main
  | h :: _ => match h.kind with | .tick => .tick | .rx _ => .rx

/-- The running level: main's is -1 (10_state.md R32). -/
def State.level (s : State) : Int :=
  match s.handlers with
  | [] => -1
  | h :: _ => (h.level.val : Int)

/-- `kind` and `pc`, which every fault and refusal records (60_exceptions.md R301). -/
def State.info (s : State) : FrameInfo where
  kind := s.kind
  pc := s.ctx.pc

/-- Sets the executing frame's `micro`: the command goes on at `m`. -/
def State.setMicro (s : State) (m : Micro) : State :=
  s.setCtx { s.ctx with micro := some m }

/-- The command's last micro-step is done: `pc <- pc + 1`, `micro <- none` (10_state.md R35). -/
def State.finish (s : State) : State :=
  s.setCtx { pc := s.ctx.pc + 1, past := s.ctx.past || s.ctx.pc == 0xFFFF, micro := none }

/-! ### Taking an interrupt and returning from one -/

/-- `prio(s)` (60_exceptions.md R304). -/
def Params.prioOf (p : Params) : Source → Fin 2
  | .tick => p.prioTick
  | .rx _ => p.prioRx

/-- Interrupt entry (60_exceptions.md R310): the interrupted frame stays as it is, `DL` is saved in
the new frame, `TF` is cleared for a tick, and control goes to the source's vector. -/
def enterSource (src : Source) (s : State) : Result :=
  match src with
  | .tick =>
    .next { s with
      tf := false
      handlers :=
        { kind := .tick, level := Params.prioOf s.cfg .tick, savedDL := s.dl
          ctx := { pc := tickVector, past := false, micro := none } } :: s.handlers }
  | .rx k =>
    if k = s.cfg.echoLine then
      .next { s with
        handlers :=
          { kind := .rx k, level := Params.prioOf s.cfg (.rx k), savedDL := s.dl
            ctx := { pc := rxVector, past := false, micro := none } } :: s.handlers }
    else .fault (.noHandler s.info k)

/-- Return from a handler (46_control.md R284, 60_exceptions.md R312): pops the frame and restores
`DL`; the frame below resumes where it stood. -/
def leaveHandler (s : State) : Result :=
  match s.handlers with
  | [] => .fault (.retiNoHandler s.info)
  | h :: hs => .next { s with handlers := hs, dl := h.savedDL }

/-! ### Lines, trace, LED (10_state.md R38, R41, R58) -/

/-- The registers of line `k`. -/
def State.line (s : State) : Line → LineState
  | .l0 => s.line0
  | .l1 => s.line1

/-- Replaces the registers of line `k`. -/
def State.setLine (s : State) (k : Line) (l : LineState) : State :=
  { s with
    line0 := (match k with | .l0 => l | .l1 => s.line0)
    line1 := (match k with | .l0 => s.line1 | .l1 => l) }

/-- `emit E` (00_scope.md R12). -/
def State.emit (s : State) (e : Event) : State :=
  { s with trace := s.trace ++ [e] }

/-- The level of the LED output pin (10_state.md R41). -/
def State.ledPin (s : State) : Bool := s.cfg.pin s.ledOn

/-- `set_led(v)` (44_led.md R233). -/
def State.setLed (s : State) (v : Bool) : State :=
  { s with
    ledOn := v
    trace := if s.ledOn = v then s.trace else s.trace ++ [.led (s.cfg.pin v)] }

/-! ### Flash commands (20_memory.md R86, 41_flash_store.md R145) -/

/-- Issues a flash operation: `FL_OP <- op; FL_BUSY <- 1`. -/
def State.issue (s : State) (op : FlashOp) : State :=
  { s with flOp := some op, flBusy := true }

/-- `ADDR <- ADDR + 1`, wrapping (41_flash_store.md R149). -/
def State.bumpAddr (s : State) : State :=
  { s with addr := s.addr.map (· + 1) }

/-- The check `if FL_BUSY = 1: raise Fault(FLASH_BUSY)`. -/
def flashIdle (s : State) (r : Result) : Result :=
  if s.flBusy then .fault (.flashBusy s.info s.flOp) else r

/-- The checks on the cursor: `CURSOR_UNDEF`, then `FLASH_ADDR`. -/
def withCursor (s : State) (c : Half → Result) : Result :=
  match s.addr with
  | none => .fault (.cursorUndef s.info)
  | some a => if s.cfg.inRegion a.toNat then c a else .fault (.flashAddr s.info a)

/-- The cursor inside `NV.SAVE` and `NV.LOAD`, which the spec does not check because it stays in the
slot (20_memory.md R86); when another context has moved it out of the region, the model stops
(log 12). -/
def withSlotCursor (s : State) (c : Half → Result) : Result :=
  match s.addr with
  | none => .fault (.cursorLost s.info none)
  | some a => if s.cfg.inRegion a.toNat then c a else .fault (.cursorLost s.info (some a))

end Machine

end Sys2Proof
end

