-- ==== Sys2Proof/Machine/Operands.lean ====
section
/-! DEFINITION. The operand forms that read state: the byte operand and the line number. -/

namespace Sys2Proof.Machine

/-- The byte operand: an immediate, or `DL`, whose undef value faults before any effect
(30_encoding.md R114). -/
def withByte (b : ByteOp) (s : State) (c : Byte → Result) : Result :=
  match b with
  | .imm v => c v
  | .dl =>
    match s.dl with
    | some v => c v
    | none => .fault (.dlUndef s.info)

/-- The line operand: a command of an absent line is refused before anything else
(30_encoding.md R115, log 10). -/
def withLine (k : Line) (s : State) (r : Result) : Result :=
  if s.cfg.hasLine k then r else .refused (.noSuchLine s.info)

/-- The source operand of `INT.ENSRC` and `INT.DISSRC`: RX1 with one line is refused
(46_control.md R287). -/
def withSource (src : Source) (s : State) (r : Result) : Result :=
  match src with
  | .tick => r
  | .rx k => withLine k s r

end Sys2Proof.Machine
end

