-- ==== Sys2Proof/Machine/Flags.lean ====
section
/-! DEFINITION. The flag computations: flag reads as bytes, the interrupt enables, the interrupt
requests and which source may be entered. -/

namespace Sys2Proof.Machine

/-- `zext_8` of a flag (42_serial.md R183, R185). -/
def flagByte (f : Bool) : Byte := if f then 1 else 0

/-- `IEN` as the register of 10_state.md R36: bit 0 `EA`, 1 `IE_TICK`, 2 `IE_RX0`, 3 `IE_RX1`. -/
def Ien.bits (e : Ien) : BitVec 4 :=
  BitVec.ofBool e.rx1 ++ BitVec.ofBool e.rx0 ++ BitVec.ofBool e.tick ++ BitVec.ofBool e.ea

/-- Sets the enable of one source (46_control.md R287, R288). -/
def Ien.setSource (e : Ien) (src : Source) (v : Bool) : Ien :=
  match src with
  | .tick => { e with tick := v }
  | .rx .l0 => { e with rx0 := v }
  | .rx .l1 => { e with rx1 := v }

/-- The enable of a source (60_exceptions.md R304); `IE_RX1` is hardwired 0 when `N_LINES = 1`
(10_state.md R36, log 18). -/
def enabled (src : Source) (s : State) : Bool :=
  match src with
  | .tick => s.ien.tick
  | .rx .l0 => s.ien.rx0
  | .rx .l1 => s.ien.rx1 && s.cfg.hasLine .l1

/-- The pending flag of a source (60_exceptions.md R304). -/
def pending (src : Source) (s : State) : Bool :=
  match src with
  | .tick => s.tf
  | .rx k => (s.line k).ri

/-- A source is acceptable (60_exceptions.md R305). -/
def acceptable (src : Source) (s : State) : Bool :=
  s.fault.isNone && s.refused.isNone && s.ien.ea && enabled src s && pending src s &&
  decide (s.level < ((Params.prioOf s.cfg src).val : Int))

/-- The sources of the block (60_exceptions.md R304). -/
def sources : List Source := [.tick, .rx .l0, .rx .l1]

/-- The CPU may enter this source: it is acceptable, and none that is acceptable has a higher
priority (60_exceptions.md R306). -/
def mayEnter (src : Source) (s : State) : Bool :=
  acceptable src s &&
  sources.all fun t => !acceptable t s || decide (Params.prioOf s.cfg t ≤ Params.prioOf s.cfg src)

end Sys2Proof.Machine
end

