-- ==== Sys2Proof/Machine/Agents.lean ====
section
/-! DEFINITION. The steps of the agents other than the CPU: TimerClock, the lines, FlashEngine and
Power (00_scope.md R14). -/

namespace Sys2Proof.Machine

/-- One timer clock event (43_timer_tick.md R216). -/
def timerClock (s : State) : State :=
  { s with
    tCnt := s.tCnt - 1
    tf := if s.tCnt - 1 = 0 then true else s.tf }

/-- Line `k` completes its transmission, with byte `b` (42_serial.md R194). -/
def transmitted (k : Line) (b : Byte) (s : State) : State :=
  (s.setLine k { s.line k with txBusy := false, ti := true }).emit (.tx k b)

/-- Line `k`'s transmit completion step (42_serial.md R194). In a state no run reaches, where a byte
is in flight and `TX_DATA` is undef, the byte is a free value (log 15). -/
def lineComplete (k : Line) (s : State) : State :=
  match (s.line k).txData with
  | some b => transmitted k b s
  | none => transmitted k (Config.freeByte s.draws) { s with draws := s.draws + 1 }

/-- A delivery that the line takes: cases (a) and (b) of 42_serial.md R195. -/
def receive (l : LineState) (b : Byte) (newest : Bool) : LineState :=
  if l.ri then { l with rxData := if newest then some b else l.rxData }
  else { l with rxData := some b, ri := true }

/-- Line `k`'s delivery step (42_serial.md R195): `received` is the choice of an unconfigured line,
`newest` the choice of an overrun. -/
def lineDeliver (k : Line) (b : Byte) (received newest : Bool) (s : State) : State :=
  if (s.line k).cfg.isSome || received then
    (s.setLine k (receive (s.line k) b newest)).emit (.rx k b)
  else s.emit (.rx k b)

/-- FlashEngine's completion step (41_flash_store.md R147). With `FL_BUSY = 1` and no operation,
which no run reaches, only `FL_BUSY` is cleared (log 15). -/
def flashComplete (s : State) : State :=
  match s.flOp with
  | some (.erase base) =>
    { s with mem := s.mem.erase base s.cfg.sectorSize, flBusy := false, flOp := none }
  | some (.program a v) =>
    { s with
      mem := s.mem.program a v (Config.freeByte s.draws)
      draws := if s.mem.fresh a then s.draws else s.draws + 1
      flBusy := false, flOp := none }
  | none => { s with flBusy := false }

/-- What a power loss does to the flash array and the draw counter
(70_reset_and_hazards.md R341). -/
def flashAtLoss (s : State) : Memory × Nat :=
  match s.flBusy, s.flOp with
  | true, some (.erase base) =>
    (s.mem.scramble base s.draws s.cfg.sectorSize, s.draws + s.cfg.sectorSize)
  | true, some (.program a _) => (s.mem.put a (Config.freeByte s.draws), s.draws + 1)
  | _, _ => (s.mem, s.draws)

/-- Power's step, a power cycle (70_reset_and_hazards.md R341): every element but the flash array is
reset, and the trace is kept. -/
def powerCycle (s : State) : State :=
  State.atReset s.cfg s.rom (flashAtLoss s).1 (s.trace ++ [.powerLoss, .powerOn]) s.plan
    (flashAtLoss s).2

/-- The agent of a move has a step in this state (00_scope.md R14; the rule of each agent). -/
def moveEnabled (m : Move) (s : State) : Bool :=
  match m with
  | .cpu => true
  | .accept src => mayEnter src s
  | .timer => s.tRun
  | .lineTx k => s.cfg.hasLine k && (s.line k).txBusy
  | .lineRx k _ _ _ => s.cfg.hasLine k
  | .flash => s.flBusy
  | .power => true

end Sys2Proof.Machine
end

