-- ==== Sys2Proof/Machine/Control.lean ====
section
/-! DEFINITION. The control commands (46_control.md R282-R284). -/

namespace Sys2Proof.Machine

/-- `CTL.NOP` (46_control.md R282). -/
def execNop (s : State) : Result := .next s.finish

/-- `CTL.IDLE`: no effect, and `pc` is not advanced (46_control.md R283). -/
def execIdle (s : State) : Result := .next s

/-- `CTL.RETI` (46_control.md R284). -/
def execReti (s : State) : Result := leaveHandler s

end Sys2Proof.Machine
end

