-- ==== Sys2Proof/Machine/Serial.lean ====
section
/-! DEFINITION. The serial commands (42_serial.md R181-R189). -/

namespace Sys2Proof.Machine

/-- The checks and the effect of `SER.WRITE k, b` (42_serial.md R181), the byte being read. -/
def writeLine (k : Line) (b : Byte) (s : State) (c : State → Result) : Result :=
  if (s.line k).cfg.isNone then .fault (.lineUnconfig s.info k)
  else if (s.line k).txBusy then .fault (.txBusy s.info k)
  else c (s.setLine k { s.line k with txData := some b, txBusy := true })

/-- Micro-steps M2 and M3 of `SER.SENDB` (42_serial.md R187). -/
def sendNext (k : Line) (p : SendPos) (s : State) (more : SendPos → State → Result)
    (fin : State → Result) : Result :=
  match p with
  | .m2 => if (s.line k).ti then more .m3 s else more .m2 s
  | .m3 => fin (s.setLine k { s.line k with ti := false })

/-- `SER.WRITE k, byteop` (42_serial.md R181). -/
def execSerWrite (k : Line) (b : ByteOp) (s : State) : Result :=
  withLine k s <| withByte b s fun v => writeLine k v s fun t => .next t.finish

/-- `SER.READ k` (42_serial.md R182); it copies undef. -/
def execSerRead (k : Line) (s : State) : Result :=
  withLine k s <| .next ({ s with dl := (s.line k).rxData } : State).finish

/-- `SER.TXDONE k` (42_serial.md R183). -/
def execSerTxdone (k : Line) (s : State) : Result :=
  withLine k s <| .next ({ s with dl := some (flagByte (s.line k).ti) } : State).finish

/-- `SER.CLRTX k` (42_serial.md R184). -/
def execSerClrtx (k : Line) (s : State) : Result :=
  withLine k s <| .next (s.setLine k { s.line k with ti := false }).finish

/-- `SER.RXRDY k` (42_serial.md R185). -/
def execSerRxrdy (k : Line) (s : State) : Result :=
  withLine k s <| .next ({ s with dl := some (flagByte (s.line k).ri) } : State).finish

/-- `SER.CLRRX k` (42_serial.md R186). -/
def execSerClrrx (k : Line) (s : State) : Result :=
  withLine k s <| .next (s.setLine k { s.line k with ri := false }).finish

/-- `SER.CONFIG k, mode, md, baud, dbl` (42_serial.md R189). -/
def execSerConfig (k : Line) (mode : BitVec 2) (md : Bool) (baud : BitVec 2) (dbl : Bool)
    (s : State) : Result :=
  withLine k s <|
    if mode ≠ 1 ∨ md = true then .refused (.configNotModelled s.info)
    else .next (s.setLine k { s.line k with
      cfg := some { mode := mode, md := md, baud := baud, dbl := dbl } }).finish

/-- `SER.SENDB k, byteop`, micro-step M1 (42_serial.md R187). -/
def execSerSendb (k : Line) (b : ByteOp) (s : State) : Result :=
  withLine k s <| withByte b s fun v =>
    writeLine k v s fun t => .next (t.setMicro (.sendb k .m2))

end Sys2Proof.Machine
end

