-- ==== Sys2Proof/Machine/Flash.lean ====
section
/-! DEFINITION. The flash register-interface commands (41_flash_store.md R144-R148). -/

namespace Sys2Proof.Machine

/-- `FL.SETADDR a16` (41_flash_store.md R144). -/
def execFlSetaddr (a : Half) (s : State) : Result :=
  .next ({ s with addr := some a } : State).finish

/-- `FL.ERASE`, micro-step M1 (41_flash_store.md R145). -/
def execFlErase (s : State) : Result :=
  withCursor s fun a =>
    flashIdle s (.next ((s.issue (.erase (s.cfg.sectorBase a.toNat))).setMicro .flErase))

/-- Micro-step M1 of `FL.PROG` and `NV.WRB`: the checks, then `Program(ADDR, b)` is issued and the
command goes on at `m` (41_flash_store.md R146, R149). -/
def programM1 (b : ByteOp) (m : Micro) (s : State) : Result :=
  withByte b s fun v =>
    withCursor s fun a =>
      flashIdle s (.next ((s.issue (.program a.toNat v)).setMicro m))

/-- `FL.PROG byteop`, micro-step M1 (41_flash_store.md R146). -/
def execFlProg (b : ByteOp) (s : State) : Result := programM1 b .flProg s

/-- Micro-step M2 of `FL.ERASE` and `FL.PROG`: `hold until FL_BUSY = 0` (41_flash_store.md R145,
R146; 46_control.md R289). -/
def holdFlash (s : State) : Result :=
  if s.flBusy then .next s else .next s.finish

/-- The checks and the read of `FL.READ` and `NV.RDB` (41_flash_store.md R148, R151). -/
def readCursor (s : State) (c : Half → Byte → Result) : Result :=
  withCursor s fun a => flashIdle s (c a (s.mem.read a.toNat))

/-- `FL.READ` (41_flash_store.md R148). -/
def execFlRead (s : State) : Result :=
  readCursor s fun _ v => .next ({ s with dl := some v } : State).finish

end Sys2Proof.Machine
end

