-- ==== Sys2Proof/Machine/Store.lean ====
section
/-! DEFINITION. The NonVolatileStore commands (41_flash_store.md R149-R152). -/

namespace Sys2Proof.Machine

/-- `NV.WRB byteop`, micro-step M1 (41_flash_store.md R149). -/
def execNvWrb (b : ByteOp) (s : State) : Result := programM1 b .nvWrb s

/-- `NV.WRB`, micro-step M2: hold, then `ADDR <- ADDR + 1` (41_flash_store.md R149). -/
def wrbM2 (s : State) : Result :=
  if s.flBusy then .next s else .next s.bumpAddr.finish

/-- `NV.RDB` (41_flash_store.md R151). -/
def execNvRdb (s : State) : Result :=
  readCursor s fun a v => .next ({ s with dl := some v, addr := some (a + 1) } : State).finish

/-- Micro-step S1 of `NV.SAVE` (41_flash_store.md R150). -/
def saveStart (s : State) (c : State → Result) : Result :=
  flashIdle s <|
    c (({ s with addr := some s.cfg.slotAddr } : State).issue
      (.erase (s.cfg.sectorBase s.cfg.slotAddr.toNat)))

/-- S3's byte: `ECHO_BUF[i]` while `i < n`, then the terminator (41_flash_store.md R150). -/
def saveByte (n i : Nat) (s : State) (c : Byte → Result) : Result :=
  if i < n then
    match s.echoBuf[i]? with
    | some (some v) => c v
    | _ => .fault (.bufUndef s.info i)
  else c terminator

/-- Micro-steps S2 to S4 of `NV.SAVE n` (41_flash_store.md R150): `more` goes on at a micro-step,
`fin` ends the command. -/
def saveNext (n : Nat) (p : SavePos) (s : State) (more : SavePos → State → Result)
    (fin : State → Result) : Result :=
  match p with
  | .s2 => if s.flBusy then more .s2 s else more (.s3 0) s
  | .s3 i =>
    saveByte n i s fun v =>
      flashIdle s <| withSlotCursor s fun a =>
        more (.s4 i) (s.issue (.program a.toNat v))
  | .s4 i =>
    if s.flBusy then more (.s4 i) s
    else if i + 1 ≤ n then more (.s3 (i + 1)) s.bumpAddr
    else fin s.bumpAddr

/-- `NV.SAVE n`, micro-step S1 (41_flash_store.md R150). -/
def execNvSave (n : BitVec 5) (s : State) : Result :=
  saveStart s fun t => .next (t.setMicro (.nvSave n.toNat .s2))

/-- Micro-step L1 of `NV.LOAD` (41_flash_store.md R152). -/
def loadStart (s : State) (more : LoadPos → State → Result) (fin : State → Result) : Result :=
  flashIdle s <|
    let cur := s.mem.read s.cfg.slotAddr.toNat
    let t : State := { s with addr := some (s.cfg.slotAddr + 1) }
    if cur = sentinel then fin { t with loadPresent := false, loadLen := 0 }
    else more (.l2 0 cur) { t with loadPresent := true }

/-- `LOAD_LEN` for the count of `k` bytes. -/
def loadCount (k : Fin 27) : Fin 28 := k.castSucc

/-- Micro-steps L2 and L3 of `NV.LOAD` (41_flash_store.md R152). -/
def loadNext (p : LoadPos) (s : State) (more : LoadPos → State → Result)
    (fin : State → Result) : Result :=
  match p with
  | .l2 k cur =>
    if cur = terminator then fin { s with loadLen := loadCount k }
    else
      let t : State := { s with loadBuf := s.loadBuf.set k.val (some cur) }
      if h : k.val + 1 < 27 then more (.l3 ⟨k.val + 1, h⟩) t
      else fin { t with loadLen := 27 }
  | .l3 k =>
    flashIdle s <| withSlotCursor s fun a =>
      more (.l2 k (s.mem.read a.toNat)) { s with addr := some (a + 1) }

/-- `NV.LOAD`, micro-step L1 (41_flash_store.md R152). -/
def execNvLoad (s : State) : Result :=
  loadStart s (fun p t => .next (t.setMicro (.nvLoad p))) (fun t => .next t.finish)

end Sys2Proof.Machine
end

