-- ==== Sys2Proof/Machine/Echo.lean ====
section
/-! DEFINITION. The alpha-echo commands (45_echo.md R252, R256). -/

namespace Sys2Proof.Machine

/-- The start letter of the run that end letter `t` asks for (45_echo.md R253). -/
def runStart (t : Byte) : Option Byte :=
  if 0x61 ≤ t.toNat ∧ t.toNat ≤ 0x7A then some 0x61
  else if 0x41 ≤ t.toNat ∧ t.toNat ≤ 0x5A then some 0x41
  else none

/-- `len = t - start + 1` (45_echo.md R253). -/
def runLength (start t : Byte) : Nat := (t - start).toNat + 1

/-- Character `i` of the run: `c <- start + i` (45_echo.md R252, E2). -/
def runChar (start : Byte) (i : Nat) : Byte := start + BitVec.ofNat 8 i

/-- `printable(b)` (45_echo.md R257). -/
def printable (b : Byte) : Bool := decide (0x20 ≤ b.toNat) && decide (b.toNat ≤ 0x7E)

/-- The command goes on at micro-step `p` of `ECHO.ONBYTE`. -/
def echoAt (start : Byte) (len : Nat) (p : EchoPos) (s : State) : Result :=
  .next (s.setMicro (.onbyte start len p))

/-- `ECHO.ONBYTE byteop`, micro-step E1 (45_echo.md R252). A byte that is no letter ends the command
here, with no effect (R255). -/
def execEchoOnbyte (b : ByteOp) (s : State) : Result :=
  withByte b s fun t =>
    match runStart t with
    | none => .next s.finish
    | some start =>
      if s.echoBusy then .fault (.echoReentry s.info)
      else if runLength start t + 1 > 27 then
        .fault (.echoOverflow s.info (runLength start t))
      else echoAt start (runLength start t) (.e2 0) { s with echoBusy := true }

/-- Micro-steps E2 to E5 of `ECHO.ONBYTE` (45_echo.md R252). The plain action under a label and the
first micro-step of the command nested there are one micro-step (log 11). -/
def onbyteNext (start : Byte) (len : Nat) (p : EchoPos) (s : State) : Result :=
  match p with
  | .e2 i => writeLine s.cfg.echoLine (runChar start i) s (echoAt start len (.e2Send i .m2))
  | .e2Send i q =>
    sendNext s.cfg.echoLine q s (fun r => echoAt start len (.e2Send i r)) (echoAt start len (.e3 i))
  | .e3 i =>
    echoAt start len (if i + 1 < len then .e2 (i + 1) else .e4)
      { s with echoBuf := s.echoBuf.setIfInBounds i (some (runChar start i)) }
  | .e4 =>
    saveStart { s with echoBuf := s.echoBuf.setIfInBounds len (some terminator) }
      (echoAt start len (.e4Save .s2))
  | .e4Save q =>
    saveNext len q s (fun r => echoAt start len (.e4Save r)) (echoAt start len .e5)
  | .e5 => .next ({ s with echoBusy := false } : State).finish

/-- The command goes on at micro-step `p` of `ECHO.REPLAY`. -/
def replayAt (p : ReplayPos) (s : State) : Result := .next (s.setMicro (.replay p))

/-- `ECHO.REPLAY`, micro-step P0 (45_echo.md R256). -/
def execEchoReplay (s : State) : Result :=
  if s.echoBusy then .fault (.echoReentry s.info)
  else replayAt .p1 { s with echoBusy := true }

/-- P3 up to its `SER.SENDB`'s M1 (45_echo.md R256): it stops at `LOAD_LEN`, at the 27-byte cap and at
the first byte that is not printable (log 13). -/
def replayByte (j : Nat) (s : State) : Result :=
  if j = s.loadLen.val ∨ 27 ≤ j then replayAt .p4 s
  else
    match s.loadBuf[j]? with
    | some (some b) =>
      if printable b then writeLine s.cfg.echoLine b s (replayAt (.p3Send j .m2))
      else replayAt .p4 s
    | _ => .fault (.bufUndef s.info j)

/-- Micro-steps P1 to P4 of `ECHO.REPLAY` (45_echo.md R256). -/
def replayNext (p : ReplayPos) (s : State) : Result :=
  match p with
  | .p1 => loadStart s (fun q => replayAt (.p1Load q)) (replayAt .p2)
  | .p1Load q => loadNext q s (fun r => replayAt (.p1Load r)) (replayAt .p2)
  | .p2 => if s.loadPresent then replayAt (.p3 0) s else replayAt .p4 s
  | .p3 j => replayByte j s
  | .p3Send j q =>
    sendNext s.cfg.echoLine q s (fun r => replayAt (.p3Send j r)) (replayAt (.p3 (j + 1)))
  | .p4 => .next ({ s with echoBusy := false } : State).finish

end Sys2Proof.Machine
end

