-- ==== Sys2Proof/Machine/Gate.lean ====
section
/-! DEFINITION. The interrupt gate commands (46_control.md R285-R288). -/

namespace Sys2Proof.Machine

/-- `EA <- v`. -/
def State.setGate (s : State) (v : Bool) : State :=
  { s with ien := { s.ien with ea := v } }

/-- The source's enable `<- v`. -/
def State.setEnable (s : State) (src : Source) (v : Bool) : State :=
  { s with ien := s.ien.setSource src v }

/-- `INT.ENALL` (46_control.md R285). -/
def execIntEnall (s : State) : Result := .next (s.setGate true).finish

/-- `INT.DISALL` (46_control.md R286). -/
def execIntDisall (s : State) : Result := .next (s.setGate false).finish

/-- `INT.ENSRC src` (46_control.md R287). -/
def execIntEnsrc (src : Source) (s : State) : Result :=
  withSource src s (.next (s.setEnable src true).finish)

/-- `INT.DISSRC src` (46_control.md R288). -/
def execIntDissrc (src : Source) (s : State) : Result :=
  withSource src s (.next (s.setEnable src false).finish)

end Sys2Proof.Machine
end

