-- ==== Sys2Proof/Machine/Led.lean ====
section
/-! DEFINITION. The LED scheduler commands (44_led.md R231, R232). -/

namespace Sys2Proof.Machine

/-- `DUTY * 1000`, at most 5000 (44_led.md R231). -/
def Duty.ticks : Duty → Half
  | .d1 => 1000
  | .d2 => 2000
  | .d3 => 3000
  | .d4 => 4000
  | .d5 => 5000

/-- `(DUTY = 1) ? 5 : DUTY - 1` (44_led.md R231). -/
def Duty.next : Duty → Duty
  | .d1 => .d5
  | .d2 => .d1
  | .d3 => .d2
  | .d4 => .d3
  | .d5 => .d4

/-- The end of an unlit phase: `Lit`, LED on, `LIT_REM` armed for the variant (44_led.md R231). -/
def lightUp (s : State) : State :=
  let t := ({ s with ledState := .lit } : State).setLed true
  match s.cfg.ledVariant with
  | .fixed => { t with litRem := litTicksFixed }
  | .breathing => { t with litRem := Duty.ticks s.duty, duty := Duty.next s.duty }

/-- One tick of the scheduler (44_led.md R231). -/
def ledTick (s : State) : State :=
  match s.ledState with
  | .lit =>
    let t : State := { s with litRem := s.litRem - 1 }
    if t.litRem = 0 then
      { ({ t with ledState := .unlit } : State).setLed false with offRem := offTicks }
    else t
  | .unlit =>
    let t : State := { s with offRem := s.offRem - 1 }
    if t.offRem = 0 then lightUp t else t

/-- `LED.ADVANCE` (44_led.md R231). -/
def execLedAdvance (s : State) : Result := .next (ledTick s).finish

/-- The scheduler re-armed to its initial state (44_led.md R232). -/
def ledArm (s : State) : State :=
  let t := { ({ s with ledState := .lit } : State).setLed true with offRem := offTicks }
  match s.cfg.ledVariant with
  | .fixed => { t with litRem := litArm .fixed }
  | .breathing => { t with litRem := litArm .breathing, duty := .d4 }

/-- `LED.INIT` (44_led.md R232). -/
def execLedInit (s : State) : Result := .next (ledArm s).finish

end Sys2Proof.Machine
end

