-- ==== Sys2Proof/Machine/Timer.lean ====
section
/-! DEFINITION. The tick timer commands (43_timer_tick.md R211-R214). -/

namespace Sys2Proof.Machine

/-- `TMR.CONFIG mode, gate, src` (43_timer_tick.md R211). -/
def execTmrConfig (mode : BitVec 2) (gate src : Bool) (s : State) : Result :=
  if mode ≠ 1 ∨ gate = true ∨ src = true then .refused (.configNotModelled s.info)
  else .next ({ s with tmrCfg := some { mode := mode, gate := gate, src := src } } : State).finish

/-- `TMR.RELOAD v16` (43_timer_tick.md R212). -/
def execTmrReload (v : Half) (s : State) : Result :=
  .next ({ s with tCnt := v } : State).finish

/-- `TMR.START` (43_timer_tick.md R213). -/
def execTmrStart (s : State) : Result :=
  match s.tmrCfg with
  | none => .fault (.timerUnconfig s.info)
  | some _ => .next ({ s with tRun := true } : State).finish

/-- `TMR.STOP` (43_timer_tick.md R214). -/
def execTmrStop (s : State) : Result :=
  .next ({ s with tRun := false } : State).finish

end Sys2Proof.Machine
end

