-- ==== Sys2Proof/Machine/Dispatch.lean ====
section
/-! DEFINITION. The first micro-step of every command, one arm per constructor. -/

namespace Sys2Proof.Machine

def exec (i : Instr) (s : State) : Host.Outcome State Fault Refusal :=
  match i with
  | .nop => Sys2Proof.Machine.execNop s
  | .idle => Sys2Proof.Machine.execIdle s
  | .reti => Sys2Proof.Machine.execReti s
  | .flSetaddr a => Sys2Proof.Machine.execFlSetaddr a s
  | .flErase => Sys2Proof.Machine.execFlErase s
  | .flProg b => Sys2Proof.Machine.execFlProg b s
  | .flRead => Sys2Proof.Machine.execFlRead s
  | .nvWrb b => Sys2Proof.Machine.execNvWrb b s
  | .nvRdb => Sys2Proof.Machine.execNvRdb s
  | .nvSave n => Sys2Proof.Machine.execNvSave n s
  | .nvLoad => Sys2Proof.Machine.execNvLoad s
  | .tmrConfig mode gate src => Sys2Proof.Machine.execTmrConfig mode gate src s
  | .tmrReload v => Sys2Proof.Machine.execTmrReload v s
  | .tmrStart => Sys2Proof.Machine.execTmrStart s
  | .tmrStop => Sys2Proof.Machine.execTmrStop s
  | .serWrite k b => Sys2Proof.Machine.execSerWrite k b s
  | .serRead k => Sys2Proof.Machine.execSerRead k s
  | .serTxdone k => Sys2Proof.Machine.execSerTxdone k s
  | .serClrtx k => Sys2Proof.Machine.execSerClrtx k s
  | .serRxrdy k => Sys2Proof.Machine.execSerRxrdy k s
  | .serClrrx k => Sys2Proof.Machine.execSerClrrx k s
  | .serConfig k mode md baud dbl => Sys2Proof.Machine.execSerConfig k mode md baud dbl s
  | .serSendb k b => Sys2Proof.Machine.execSerSendb k b s
  | .intEnall => Sys2Proof.Machine.execIntEnall s
  | .intDisall => Sys2Proof.Machine.execIntDisall s
  | .intEnsrc src => Sys2Proof.Machine.execIntEnsrc src s
  | .intDissrc src => Sys2Proof.Machine.execIntDissrc src s
  | .ledInit => Sys2Proof.Machine.execLedInit s
  | .ledAdvance => Sys2Proof.Machine.execLedAdvance s
  | .echoOnbyte b => Sys2Proof.Machine.execEchoOnbyte b s
  | .echoReplay => Sys2Proof.Machine.execEchoReplay s

end Sys2Proof.Machine
end

