-- ==== Sys2Proof/Machine/Resume.lean ====
section
/-! DEFINITION. The next micro-step of a composite command in progress (46_control.md R281). -/

namespace Sys2Proof.Machine

/-- `perform F.micro's next micro-step` (46_control.md R281). -/
def resume (m : Micro) (s : State) : Result :=
  match m with
  | .sendb k p =>
    sendNext k p s (fun q t => .next (t.setMicro (.sendb k q))) (fun t => .next t.finish)
  | .flErase => holdFlash s
  | .flProg => holdFlash s
  | .nvWrb => wrbM2 s
  | .nvSave n p =>
    saveNext n p s (fun q t => .next (t.setMicro (.nvSave n q))) (fun t => .next t.finish)
  | .nvLoad p =>
    loadNext p s (fun q t => .next (t.setMicro (.nvLoad q))) (fun t => .next t.finish)
  | .onbyte start len p => onbyteNext start len p s
  | .replay p => replayNext p s

end Sys2Proof.Machine
end

