-- ==== Sys2Proof/Machine/Run.lean ====
section
/-! DEFINITION. Command fetch, the CPU step, whose turn it is, and how a stop is recorded. -/

namespace Sys2Proof.Machine

/-- Fetches and decodes the command at the executing frame's `pc` (46_control.md R281): past the ROM's
end it faults (10_state.md R35), an ILLEGAL word is refused (30_encoding.md R117). -/
def withFetch (s : State) (c : Instr → Result) : Result :=
  if s.ctx.past then .fault (.pcOutOfRom s.info s.ctx.pc)
  else
    match s.rom[s.ctx.pc.toNat]? with
    | none => .fault (.pcOutOfRom s.info s.ctx.pc)
    | some w =>
      match decode w with
      | .error _ => .refused (.illegalEncoding s.info)
      | .ok i => c i

/-- The CPU step that accepts no interrupt (46_control.md R281): the next micro-step of the command in
progress, or the first one of the command at `pc`. -/
def cpuStep (s : State) : Result :=
  match s.ctx.micro with
  | some m => resume m s
  | none => withFetch s fun i => exec i s

/-- The step of the agent a move names, or the CPU's when that agent has none (log 2). -/
def takeMove (m : Move) (s : State) : Result :=
  if moveEnabled m s then
    match m with
    | .cpu => cpuStep s
    | .accept src => enterSource src s
    | .timer => .next (timerClock s)
    | .lineTx k => .next (lineComplete k s)
    | .lineRx k b received newest => .next (lineDeliver k b received newest s)
    | .flash => .next (flashComplete s)
    | .power => .next (powerCycle s)
  else cpuStep s

/-- The move of this step: the head of the plan, or a free value when the plan is empty (log 2). -/
def State.move (s : State) : Move :=
  match s.plan with
  | m :: _ => m
  | [] => Config.freeMove s.draws

/-- The state with this step's move taken off: nothing else changes. -/
def State.popMove (s : State) : State :=
  { s with
    plan := s.plan.tail
    draws := (match s.plan with | _ :: _ => s.draws | [] => s.draws + 1) }

/-- A fault or a refusal that a step raises is recorded and has no other effect
(60_exceptions.md R300, R302; log 8). -/
def recordStop (s : State) (r : Result) : Result :=
  match r with
  | .next t => .next t
  | .fault f => .next { s with fault := some f }
  | .refused r => .next { s with refused := some r }

/-- One turn in a state that has neither faulted nor been refused. -/
def turn (s : State) : Result :=
  recordStop s.popMove (takeMove s.move s.popMove)

/-- No agent has a step in a faulted or refused state (60_exceptions.md R300, R302). -/
def stepOf (s : State) : Result :=
  match s.fault, s.refused with
  | some f, _ => .fault f
  | none, some r => .refused r
  | none, none => turn s

/-- The ROM with word `w` at address `a`, extended with `CTL.NOP` words where it is too short. -/
def romPut (rom : List CmdWord) (a : Nat) (w : CmdWord) : List CmdWord :=
  (rom ++ List.replicate (a + 1 - rom.length) 0).set a w

/-- The state whose next step is the CPU's first micro-step of the command word `w`: the word stands
where the executing frame fetches, no command is in progress, nothing has stopped the machine, and
the CPU moves next (log 17). -/
def placeWord (s : State) (w : CmdWord) : State :=
  let t := s.setCtx { s.ctx with past := false, micro := none }
  { t with
    rom := romPut s.rom s.ctx.pc.toNat w
    fault := none
    refused := none
    plan := .cpu :: s.plan }

end Sys2Proof.Machine
end

