-- ==== Sys2Proof/Machine/Step.lean ====
section
/-! DEFINITION. One step of the machine. -/

namespace Sys2Proof.Machine

/-- One step of one agent (00_scope.md R14). -/
def step (s : State) : Host.Outcome State Fault Refusal := stepOf s

/-- `s` with the command word `w` where `step` fetches its next command, and the CPU to move next.
Every command is one 24-bit word (30_encoding.md R119). -/
def State.withFetchWord (s : State) (nbits w : Nat) : State :=
  placeWord s (BitVec.ofNat 24 (w % 2 ^ nbits))

end Sys2Proof.Machine
end

