-- ==== Sys2Proof/Safety.lean ====
section
/-! DEFINITION. What counts as a safe run, the domains of the parameters, the launch premises and the
fairness the spec names, the invariants of the machine, and the parts of the state in which frames
are stated. -/

namespace Sys2Proof

/-- The domains of the parameters that their types do not hold, and the derived constraints, a
precondition of every claim of the spec (00_scope.md R8, R9; 20_memory.md R84). -/
def Params.valid (p : Params) : Bool :=
  decide (0 < p.fOsc) && decide (0 < p.prescaler) &&
  decide (0 < p.regionSize) && decide (p.regionBase.toNat + p.regionSize ≤ 0x10000) &&
  decide (p.regionSize % p.sectorSize = 0) && decide (27 ≤ p.sectorSize) &&
  decide (p.regionBase.toNat ≤ p.slotAddr.toNat) &&
  decide (p.slotAddr.toNat + 27 ≤ p.regionBase.toNat + p.regionSize) &&
  decide (p.sectorBase p.slotAddr.toNat = p.sectorBase (p.slotAddr.toNat + 26)) &&
  decide (1 ≤ p.tickReload.toNat) && p.hasLine p.echoLine

/-- The domain of `ROM_SIZE` (00_scope.md R8). -/
def romFits (rom : List CmdWord) : Bool :=
  decide (0x26 ≤ rom.length) && decide (rom.length ≤ 0x10000)

/-- `TICK_RELOAD` has the value the spec intends (43_timer_tick.md R218). -/
def Params.reloadAsIntended (p : Params) : Bool :=
  decide (p.tickReload.toNat = p.fOsc / p.prescaler / 1000)

/-- The premise **Connected(k)**, `LINE_CONNECTED[k]` (70_reset_and_hazards.md R349). -/
def Params.connected (p : Params) : Line → Bool
  | .l0 => p.connected0
  | .l1 => p.connected1

/-! ### The encodings in the words of the spec (30_encoding.md R112, R113) -/

/-- The operand formats of R113. -/
inductive Format where
  | z
  | a16
  | b
  | n5
  | src
  | tcfg
  | scfg
  deriving DecidableEq, Repr

/-- The rows of R112: the operand format of `(U, O)`, or `none` where it is no row. -/
def rowFormat (u o : Nat) : Option Format :=
  match u, o with
  | 0x0, 0x0 | 0x0, 0x1 | 0x0, 0x2 => some .z
  | 0x1, 0x1 => some .a16
  | 0x1, 0x2 | 0x1, 0x4 => some .z
  | 0x1, 0x3 => some .b
  | 0x2, 0x3 => some .b
  | 0x2, 0x4 | 0x2, 0x6 => some .z
  | 0x2, 0x5 => some .n5
  | 0x3, 0x1 => some .tcfg
  | 0x3, 0x2 => some .a16
  | 0x3, 0x3 | 0x3, 0x4 => some .z
  | 0x4, 0x1 | 0x4, 0x8 | 0x5, 0x1 | 0x5, 0x8 => some .b
  | 0x4, 0x7 | 0x5, 0x7 => some .scfg
  | 0x4, 0x2 | 0x4, 0x3 | 0x4, 0x4 | 0x4, 0x5 | 0x4, 0x6 => some .z
  | 0x5, 0x2 | 0x5, 0x3 | 0x5, 0x4 | 0x5, 0x5 | 0x5, 0x6 => some .z
  | 0x6, 0x1 | 0x6, 0x2 => some .z
  | 0x6, 0x3 | 0x6, 0x4 => some .src
  | 0x7, 0x1 | 0x7, 0x2 => some .z
  | 0x8, 0x1 => some .b
  | 0x8, 0x2 => some .z
  | _, _ => none

/-- The operands a format admits, as numbers (R113). -/
def Format.admits : Format → Nat → Bool
  | .z, x => decide (x = 0)
  | .a16, _ => true
  | .b, x => decide (x ≤ 0x100)
  | .n5, x => decide (x ≤ 26)
  | .src, x => decide (x ≤ 2)
  | .tcfg, x => decide (x < 0x10)
  | .scfg, x => decide (x < 0x40)

/-- The word is `ILLEGAL` by R117: clauses (a) and (b) are the missing row, (c) to (f) the operand
that the row's format does not admit. -/
def illegalWord (w : CmdWord) : Bool :=
  match rowFormat (w.toNat / 0x100000) (w.toNat / 0x10000 % 0x10) with
  | none => true
  | some f => !f.admits (w.toNat % 0x10000)

namespace Machine

/-! ### Safe runs, ends of runs, premises and fairness -/

/-- The machine runs: it has neither faulted nor been refused (60_exceptions.md R300, R302). -/
def State.running (s : State) : Bool := s.fault.isNone && s.refused.isNone

/-- No source may be entered. -/
def State.noneAcceptable (s : State) : Bool := sources.all fun src => !acceptable src s

/-- The executing frame is between commands and the word at its `pc` is `w`. -/
def State.atWord (s : State) (w : CmdWord) : Prop :=
  s.ctx.micro = none ∧ s.ctx.past = false ∧ s.rom[s.ctx.pc.toNat]? = some w

/-- A quiescent end of a run (70_reset_and_hazards.md R348). The ROM address of the boot program's
`CTL.IDLE` is read as any address of a `CTL.IDLE` at which main stands (log 19). -/
def State.quiescentEnd (s : State) : Prop :=
  s.running = true ∧ s.handlers = [] ∧ s.atWord 0x010000 ∧
  s.line0.txBusy = false ∧ s.line0.ri = false ∧
  (s.cfg.nLines = .two → s.line1.txBusy = false ∧ s.line1.ri = false) ∧
  s.flBusy = false ∧ s.echoBusy = false ∧ s.noneAcceptable = true

/-- The premise **FactoryErased** (70_reset_and_hazards.md R342, R349). -/
def State.factoryErased (s : State) : Prop :=
  ∀ a, s.cfg.inRegion a = true → s.mem.read a = sentinel ∧ s.mem.fresh a = true

/-- The premise **DefaultROM** (70_reset_and_hazards.md R349): the ROM begins with the default
one. -/
def State.defaultROM (s : State) : Prop := defaultRom s.cfg <+: s.rom

/-! ### Runs and fairness (70_reset_and_hazards.md R349, R351) -/

/-- The step of the agent that `m` names, whatever the state has planned. -/
def moveStep (m : Move) (s : State) : Result := step { s with plan := [m] }

/-- `states` is a run under the schedule `moves`: a running state's step is that of the move named for
it, and a stopped state, in which no agent has a step (60_exceptions.md R300), is repeated. -/
def isRun (moves : Nat → Move) (states : Nat → State) : Prop :=
  ∀ n, ((states n).running = true → moveStep (moves n) (states n) = .next (states (n + 1))) ∧
    ((states n).running = false → states (n + 1) = states n)

/-- The agent that steps: the one a move names, or the CPU when that one has no step (log 2). -/
def mover (m : Move) (s : State) : Move := if moveEnabled m s then m else .cpu

/-- The step `d` is the one taken. Entering a source is a step of the CPU too (46_control.md R281). -/
def takes (d m : Move) (s : State) : Prop :=
  mover m s = d ∨ (d = .cpu ∧ ∃ src, mover m s = .accept src)

/-- The steps that weak fairness concerns, in the states that enable them: CPU steps, entry of an
acceptable source, timer events, flash completions, and the transmit completions of a connected
line. Line deliveries and power cycles are liberties. -/
def duty (d : Move) (s : State) : Bool :=
  s.running &&
  match d with
  | .cpu => true
  | .accept src => acceptable src s
  | .timer => s.tRun
  | .flash => s.flBusy
  | .lineTx k => s.cfg.hasLine k && (s.line k).txBusy && s.cfg.connected k
  | .lineRx _ _ _ _ => false
  | .power => false

/-- Weak fairness of a run: a duty that stays enabled from some state on is eventually taken
(70_reset_and_hazards.md R351; 42_serial.md R194; 43_timer_tick.md R219). -/
def weaklyFair (moves : Nat → Move) (states : Nat → State) : Prop :=
  ∀ (d : Move) (n : Nat), (∀ k, n ≤ k → duty d (states k) = true) →
    ∃ k, n ≤ k ∧ takes d (moves k) (states k)

/-- The premise **NoPowerLoss**: no Power step in the run (70_reset_and_hazards.md R349). -/
def noPowerLoss (moves : Nat → Move) (states : Nat → State) : Prop :=
  ∀ n, (states n).running = true → moves n ≠ .power

/-! ### Invariants -/

/-- Invariant of 41_flash_store.md R142: a fresh byte reads 0xFF. -/
def State.freshErased (s : State) : Prop :=
  ∀ a, s.mem.fresh a = true → s.mem.read a = sentinel

/-- Nesting (60_exceptions.md R305, R313): each handler has a higher level than the one it
preempted. -/
def State.nested (s : State) : Prop :=
  s.handlers.Pairwise fun above below => below.level < above.level

/-- The flash engine is busy exactly when an operation is in flight, and the operation's target lies
in the region (10_state.md R39, 20_memory.md R86). -/
def State.engineSound (s : State) : Prop :=
  s.flBusy = s.flOp.isSome ∧
  match s.flOp with
  | none => True
  | some (.erase base) => ∃ a, s.cfg.inRegion a = true ∧ base = s.cfg.sectorBase a
  | some (.program a _) => s.cfg.inRegion a = true

/-- Nothing but the region is ever programmed (20_memory.md R84, R86). -/
def State.flashInRegion (s : State) : Prop :=
  ∀ a, s.cfg.inRegion a = false → s.mem.read a = sentinel ∧ s.mem.fresh a = true

/-- What a line's flags promise (10_state.md R38, R45): a byte in flight has been written on a
configured line, and a receive-ready line holds a byte. -/
def LineState.sound (l : LineState) : Prop :=
  (l.txBusy = true → l.txData.isSome ∧ l.cfg.isSome) ∧ (l.ri = true → l.rxData.isSome)

/-- A running timer has been configured (43_timer_tick.md R213). -/
def State.timerSound (s : State) : Prop := s.tRun = true → s.tmrCfg.isSome

/-- The LED output follows the scheduler's state, and the counter of the current phase is not 0
(44_led.md R231, R238). -/
def State.ledSound (s : State) : Prop :=
  match s.ledState with
  | .lit => s.ledOn = true ∧ s.litRem ≠ 0
  | .unlit => s.ledOn = false ∧ s.offRem ≠ 0

/-- The launches that the domains of R8 admit: parameters, ROM size, and a flash content whose fresh
bytes are erased (00_scope.md R8, R9; 70_reset_and_hazards.md R342). -/
def validLaunch (cfg : Params) (rom : List CmdWord) (mem : Memory) : Prop :=
  cfg.valid = true ∧ romFits rom = true ∧ mem.wf ∧
  (State.launch cfg rom mem).freshErased ∧ (State.launch cfg rom mem).flashInRegion

/-! ### Frames -/

/-- The parts of the state in which frames are stated. -/
inductive Part where
  /-- the executing frame's pc and micro -/
  | frame
  /-- the rest of the context stack -/
  | stack
  /-- `DL` -/
  | latch
  /-- `IEN` -/
  | gate
  /-- `TMR_CFG`, `T_CNT`, `T_RUN`, `TF` -/
  | timer
  /-- the registers of one line -/
  | line (k : Line)
  /-- `ADDR` -/
  | cursor
  /-- `FL_BUSY`, `FL_OP` -/
  | engine
  /-- every byte of flash, and its freshness -/
  | flash
  /-- `LED_STATE`, `LIT_REM`, `OFF_REM`, `DUTY`, `LED_ON` -/
  | led
  /-- `ECHO_BUF`, `ECHO_BUSY` -/
  | echo
  /-- `LOAD_PRESENT`, `LOAD_LEN`, `LOAD_BUF` -/
  | load
  /-- the observation trace -/
  | trace
  /-- `FAULT`, `REFUSED` -/
  | stop
  /-- the parameters and the ROM -/
  | run
  /-- the model's own plan and draw counter -/
  | model
  deriving DecidableEq, Repr

/-- A frame without what it executes: kind, level and saved `DL`. -/
def Handler.identity (h : Handler) : HandlerKind × Fin 2 × Option Byte :=
  (h.kind, h.level, h.savedDL)

/-- The part is the same in both states. -/
def Part.same : Part → State → State → Prop
  | .frame, s, t => t.ctx = s.ctx
  | .stack, s, t =>
    t.handlers.map Handler.identity = s.handlers.map Handler.identity ∧
    t.handlers.tail = s.handlers.tail ∧ (s.handlers ≠ [] → t.main = s.main)
  | .latch, s, t => t.dl = s.dl
  | .gate, s, t => t.ien = s.ien
  | .timer, s, t => t.tmrCfg = s.tmrCfg ∧ t.tCnt = s.tCnt ∧ t.tRun = s.tRun ∧ t.tf = s.tf
  | .line k, s, t => t.line k = s.line k
  | .cursor, s, t => t.addr = s.addr
  | .engine, s, t => t.flBusy = s.flBusy ∧ t.flOp = s.flOp
  | .flash, s, t => ∀ a, t.mem.read a = s.mem.read a ∧ t.mem.fresh a = s.mem.fresh a
  | .led, s, t =>
    t.ledState = s.ledState ∧ t.litRem = s.litRem ∧ t.offRem = s.offRem ∧ t.duty = s.duty ∧
    t.ledOn = s.ledOn
  | .echo, s, t => t.echoBuf = s.echoBuf ∧ t.echoBusy = s.echoBusy
  | .load, s, t =>
    t.loadPresent = s.loadPresent ∧ t.loadLen = s.loadLen ∧ t.loadBuf = s.loadBuf
  | .trace, s, t => t.trace = s.trace
  | .stop, s, t => t.fault = s.fault ∧ t.refused = s.refused
  | .run, s, t => t.cfg = s.cfg ∧ t.rom = s.rom
  | .model, s, t => t.plan = s.plan ∧ t.draws = s.draws

/-- Every part is the same in both states, but for those named. -/
def keepsAllBut (ps : List Part) (s t : State) : Prop := ∀ p, p ∉ ps → p.same s t

/-- The command is over: the executing frame stands at the next command, which is past the last ROM
address when this one stood at 0xFFFF (10_state.md R35, log 9). -/
def nextCommand (s t : State) : Prop :=
  t.ctx = { pc := s.ctx.pc + 1, past := s.ctx.past || s.ctx.pc == 0xFFFF, micro := none }

/-- The executing frame stays at its command, whose next micro-step is `m` (10_state.md R34). -/
def goesOnAt (m : Micro) (s t : State) : Prop :=
  t.ctx = { pc := s.ctx.pc, past := s.ctx.past, micro := some m }

/-- The operand `b` has the value `v` in this state (30_encoding.md R114). -/
def operandIs (b : ByteOp) (s : State) (v : Byte) : Prop := b = .imm v ∨ (b = .dl ∧ s.dl = some v)

/-- `DUTY` as the number it stands for (10_state.md R41). -/
def dutyNumber : Duty → Nat
  | .d1 => 1
  | .d2 => 2
  | .d3 => 3
  | .d4 => 4
  | .d5 => 5

/-- The moves of an erase or a program that nothing interrupts: issue, completion, end of the
hold. -/
def flashMoves : List Move := [.cpu, .flash, .cpu]

/-- The moves of an `NV.SAVE n` that nothing interrupts: S1 and S2, then S3 and S4 for each of the
`n + 1` bytes, each with its completion. -/
def saveMoves (n : Nat) : List Move :=
  flashMoves ++ (List.replicate (n + 1) flashMoves).flatten

/-- The moves of an `NV.LOAD` of `k` bytes: L1, then L2 and L3 for each byte, and the last L2. The 27th
byte ends it without another L3, so that 27 bytes take the steps of 26 and a terminator. -/
def loadMoves (k : Nat) : List Move := List.replicate (2 * min k 26 + 2) .cpu

/-- The moves of a `SER.SENDB` that nothing interrupts: M1, the line's completion, M2, M3. -/
def sendMoves (k : Line) : List Move := [.cpu, .lineTx k, .cpu, .cpu]

/-- The moves of an `ECHO.ONBYTE` of a run of `len` letters that nothing interrupts: E1; E2 and E3 for
each letter; E4 with the save; E5. The plain action of E2 and of E4 is in the first micro-step of the
command nested there (log 11). -/
def echoMoves (k : Line) (len : Nat) : List Move :=
  .cpu :: (List.replicate len (sendMoves k ++ [.cpu])).flatten ++ saveMoves len ++ [.cpu]

/-- The moves of an `ECHO.REPLAY` of a stored run of `len` printable bytes that nothing interrupts:
P0; P1 with the load; P2; P3 for each byte; P3's end; P4 (micro-steps as log 11 groups them). -/
def replayMoves (k : Line) (len : Nat) : List Move :=
  .cpu :: loadMoves len ++ .cpu :: (List.replicate len (sendMoves k)).flatten ++ [.cpu, .cpu]

/-- `k` steps from `s` under the moves `ms` lead to `t`, with no fault or refusal on the way. -/
def runs (ms : List Move) (s t : State) : Prop :=
  Host.Core.run Sys2Proof.core ms.length { s with plan := ms } = .next t ∧ t.running = true

end Machine

end Sys2Proof
end

