-- ==== Sys2Proof/Certificates/Slice0/Obligations.lean ====
section
/-! DEFINITION. The statements for the provers. Each docstring names the rules of spec/ it rests on, and
the log entry where a choice of the model is part of what it says. -/

open Sys2Proof Sys2Proof.Machine

/-! ### Encoding (30_encoding.md) -/

/-- R112, R113: for every command and every operand value the encoding admits, decoding the encoded
word gives the command back. -/
def Obligations.DecodeOfEncodeIsTheCommand : Prop :=
  ∀ i : Instr, i.wellFormed = true → decode (encode i) = .ok i

/-- R112, R113, R116: a word that decodes is the encoding of what it decodes to, and that is well
formed: no two words mean the same command. -/
def Obligations.EncodeOfDecodeIsTheWord : Prop :=
  ∀ (w : CmdWord) (i : Instr), decode w = .ok i → i.wellFormed = true ∧ encode i = w

/-- R117: a word is ILLEGAL exactly when it is no row of R112, or its operand is one that the row's
format does not admit; and executing it is refused, with no other effect (R302). -/
def Obligations.IllegalWordsAreRefused : Prop :=
  (∀ w : CmdWord, (∃ e, decode w = .error e) ↔ illegalWord w = true) ∧
  ∀ (s : State) (rest : List Move) (w : CmdWord), s.running = true → s.plan = .cpu :: rest →
    s.atWord w → illegalWord w = true →
    step s = .next { s with plan := rest, refused := some (.illegalEncoding s.info) }

/-- Words of the decode table of 95_test_vectors.md, at least one of each unit. -/
def Obligations.ListedWordsDecodeAsTheSpecSays : Prop :=
  decode 0x000000 = .ok .nop ∧ decode 0x020000 = .ok .reti ∧
  decode 0x11FFFF = .ok (.flSetaddr 0xFFFF) ∧ decode 0x130100 = .ok (.flProg .dl) ∧
  decode 0x25001A = .ok (.nvSave 26) ∧ decode 0x25001B = .error .lengthTooLong ∧
  decode 0x310005 = .ok (.tmrConfig 1 true false) ∧ decode 0x3203E8 = .ok (.tmrReload 1000) ∧
  decode 0x47003D = .ok (.serConfig .l0 1 true 3 true) ∧
  decode 0x580061 = .ok (.serSendb .l1 (.imm 0x61)) ∧
  decode 0x630002 = .ok (.intEnsrc (.rx .l1)) ∧ decode 0x720000 = .ok .ledAdvance ∧
  decode 0x810100 = .ok (.echoOnbyte .dl) ∧ decode 0x130101 = .error .latchWithImmediate ∧
  decode 0x210000 = .error .unallocated ∧ decode 0x900000 = .error .reservedUnit

/-! ### The step (46_control.md R281, 60_exceptions.md R300-R302) -/

/-- R281: when the CPU moves and the executing frame is between commands, the step is the first
micro-step of the command that the word at its pc decodes to. Around it the step takes the move off
the plan (log 2) and records a fault or refusal (log 8). -/
def Obligations.StepRunsTheDecodedCommand : Prop :=
  ∀ (s : State) (rest : List Move) (w : CmdWord) (i : Instr), s.running = true →
    s.plan = .cpu :: rest → s.atWord w → decode w = .ok i →
    step s = recordStop { s with plan := rest } (exec i { s with plan := rest })

/-- R281: when the CPU moves and a composite command is in progress, the step is that command's next
micro-step, and nothing is fetched. -/
def Obligations.StepContinuesTheCommandInProgress : Prop :=
  ∀ (s : State) (rest : List Move) (m : Micro), s.running = true →
    s.plan = .cpu :: rest → s.ctx.micro = some m →
    step s = recordStop { s with plan := rest } (resume m { s with plan := rest })

/-- R300, R302: in a faulted or refused state no agent has a step, whatever the plan; the step answers
that fault or refusal (log 8). -/
def Obligations.StoppedMachineHasNoStep : Prop :=
  (∀ (s : State) (f : Fault), s.fault = some f → step s = .fault f) ∧
  ∀ (s : State) (r : Refusal), s.fault = none → s.refused = some r → step s = .refused r

/-- R300, R302: a step that stops the machine leaves every other element as it was (the model's own
plan and draw counter apart). -/
def Obligations.StoppingChangesNothingElse : Prop :=
  ∀ s t : State, s.running = true → step s = .next t → t.running = false →
    (∃ f, t = { s.popMove with fault := some f }) ∨
    ∃ r, t = { s.popMove with refused := some r }

/-- R35, R301 (code 10): a fetch at or past ROM_SIZE faults. The pointer never wraps: after whichever
command ends at 0xFFFF the frame's next fetch faults too, even in a ROM of 0x10000 words. That the
pc recorded there is 0x0000 is the model's own choice (log 9). -/
def Obligations.FetchPastTheRomFaults : Prop :=
  (∀ (s : State) (rest : List Move), s.running = true → s.plan = .cpu :: rest →
    s.ctx.micro = none → s.rom.length ≤ s.ctx.pc.toNat →
    step s = .next { s with plan := rest, fault := some (.pcOutOfRom s.info s.ctx.pc) }) ∧
  ∀ (s t : State) (rest : List Move), s.running = true → s.plan = .cpu :: .cpu :: rest →
    s.ctx.pc = 0xFFFF → step s = .next t → t.handlers.length = s.handlers.length →
    t.ctx.pc ≠ 0xFFFF →
    step t = .next
      { t with plan := rest, fault := some (.pcOutOfRom { kind := s.kind, pc := 0x0000 } 0x0000) }

/-! ### Control and interrupts (46_control.md, 60_exceptions.md) -/

/-- R282: `CTL.NOP` advances pc and changes nothing else. -/
def Obligations.NopOnlyAdvances : Prop :=
  decode 0x000000 = .ok .nop ∧
  ∀ s : State, ∃ t, exec .nop s = .next t ∧ nextCommand s t ∧ keepsAllBut [.frame] s t

/-- R283, R303: `CTL.IDLE` has no effect and does not advance pc; however many steps the CPU takes
there without accepting an interrupt, only the plan changes. -/
def Obligations.IdleStaysAtItsCommand : Prop :=
  (∀ s : State, exec .idle s = .next s) ∧
  ∀ (s : State) (n : Nat), s.running = true → s.atWord 0x010000 →
    runs (List.replicate n .cpu) s { s with plan := [] }

/-- R284: `CTL.RETI` pops the handler frame and restores the saved `DL`; the frame below stands where
it was preempted. In main it faults. -/
def Obligations.RetiResumesThePreemptedFrame : Prop :=
  decode 0x020000 = .ok .reti ∧
  (∀ s : State, s.handlers = [] → exec .reti s = .fault (.retiNoHandler s.info)) ∧
  ∀ (s : State) (h : Handler) (hs : List Handler), s.handlers = h :: hs →
    ∃ t, exec .reti s = .next t ∧ t.handlers = hs ∧ t.main = s.main ∧ t.dl = h.savedDL ∧
      keepsAllBut [.frame, .stack, .latch] s t

/-- R310: entry of a source that may be entered pushes its handler frame at its vector, with `DL`
saved; the interrupted frame stays untouched, `TF` is cleared for a tick only, and nothing else
changes. The RX interrupt of a line other than ECHO_LINE faults. -/
def Obligations.EntryPushesTheHandlerFrame : Prop :=
  ∀ (s : State) (src : Source) (rest : List Move), s.running = true → s.plan = .accept src :: rest →
    mayEnter src s = true →
    (∀ k, src = .rx k → k ≠ s.cfg.echoLine →
      step s = .next { s with plan := rest, fault := some (.noHandler s.info k) }) ∧
    ((∀ k, src = .rx k → k = s.cfg.echoLine) →
      ∃ t, step s = .next t ∧
        t.handlers =
          { kind := (match src with | .tick => .tick | .rx k => .rx k)
            level := (match src with | .tick => s.cfg.prioTick | .rx _ => s.cfg.prioRx)
            ctx := { pc := (match src with | .tick => 0x0010 | .rx _ => 0x0020)
                     past := false, micro := none }
            savedDL := s.dl } :: s.handlers ∧
        t.main = s.main ∧ t.tf = (match src with | .tick => false | .rx _ => s.tf) ∧
        t.tmrCfg = s.tmrCfg ∧ t.tCnt = s.tCnt ∧ t.tRun = s.tRun ∧
        keepsAllBut [.frame, .stack, .timer, .model] s t)

/-- R305, R304: a source is acceptable exactly when the machine runs, the gate is open, the source is
enabled and pending, and its priority is higher than the running level (main's is -1). The enable of
RX1 is hardwired 0 with one line (R36), which the model takes as reading 0 then (log 18, DEDUCED). -/
def Obligations.AcceptableExactlyWhenTheRuleSays : Prop :=
  ∀ (s : State) (src : Source), acceptable src s = true ↔
    s.fault = none ∧ s.refused = none ∧ s.ien.ea = true ∧
    (match src with
      | .tick => s.ien.tick = true ∧ s.tf = true
      | .rx .l0 => s.ien.rx0 = true ∧ s.line0.ri = true
      | .rx .l1 => s.ien.rx1 = true ∧ s.cfg.nLines = .two ∧ s.line1.ri = true) ∧
    (match s.handlers with
      | [] => True
      | h :: _ =>
        h.level < (match src with | .tick => s.cfg.prioTick | .rx _ => s.cfg.prioRx))

/-- R305, R306: whatever step makes the context stack deeper is an entry: the gate was open, the source
enabled and pending, its priority above the running level, and no acceptable source had a higher
one. -/
def Obligations.OnlyAHigherPriorityPreempts : Prop :=
  ∀ s t : State, step s = .next t → s.handlers.length < t.handlers.length →
    ∃ (src : Source) (h : Handler), s.move = .accept src ∧ t.handlers = h :: s.handlers ∧
      (h.level : Nat) = (Params.prioOf s.cfg src : Nat) ∧ s.level < ((h.level : Nat) : Int) ∧
      s.ien.ea = true ∧ enabled src s = true ∧ pending src s = true ∧
      ∀ other, acceptable other s = true → Params.prioOf s.cfg other ≤ Params.prioOf s.cfg src

/-- R305, R312, R313: handlers nest by strictly rising level, so at most three frames are active:
every step keeps it. -/
def Obligations.HandlersNestByRisingLevel : Prop :=
  ∀ s t : State, s.nested → step s = .next t → t.nested ∧ t.handlers.length ≤ 2

/-- R285-R288: the gate commands write the one enable they name and change nothing else. RX1 with one
line is refused. -/
def Obligations.GateCommandsWriteTheEnableTheyName : Prop :=
  (∀ s : State, ∃ t, exec .intEnall s = .next t ∧ t.ien = { s.ien with ea := true } ∧
    nextCommand s t ∧ keepsAllBut [.frame, .gate] s t) ∧
  (∀ s : State, ∃ t, exec .intDisall s = .next t ∧ t.ien = { s.ien with ea := false } ∧
    nextCommand s t ∧ keepsAllBut [.frame, .gate] s t) ∧
  (∀ (s : State) (src : Source), (src = .rx .l1 → s.cfg.nLines = .two) →
    (∃ t, exec (.intEnsrc src) s = .next t ∧
      t.ien = (match src with
        | .tick => { s.ien with tick := true }
        | .rx .l0 => { s.ien with rx0 := true }
        | .rx .l1 => { s.ien with rx1 := true }) ∧
      nextCommand s t ∧ keepsAllBut [.frame, .gate] s t) ∧
    ∃ t, exec (.intDissrc src) s = .next t ∧
      t.ien = (match src with
        | .tick => { s.ien with tick := false }
        | .rx .l0 => { s.ien with rx0 := false }
        | .rx .l1 => { s.ien with rx1 := false }) ∧
      nextCommand s t ∧ keepsAllBut [.frame, .gate] s t) ∧
  ∀ s : State, s.cfg.nLines = .one →
    exec (.intEnsrc (.rx .l1)) s = .refused (.noSuchLine s.info) ∧
    exec (.intDissrc (.rx .l1)) s = .refused (.noSuchLine s.info)

/-- R36: a step that changes `IEN` executes one of the four gate commands, or is a power cycle, which
resets it (R341). -/
def Obligations.OnlyGateCommandsWriteIen : Prop :=
  ∀ s t : State, step s = .next t → t.ien ≠ s.ien →
    s.move = .power ∨
    ∃ w i, s.atWord w ∧ decode w = .ok i ∧ exec i s.popMove = .next t ∧
      (i = .intEnall ∨ i = .intDisall ∨ (∃ src, i = .intEnsrc src) ∨ ∃ src, i = .intDissrc src)

/-! ### Flash and the store (41_flash_store.md, 20_memory.md) -/

/-- R144: `FL.SETADDR` positions the cursor at any address, and touches neither memory nor an
operation in flight. -/
def Obligations.SetaddrPositionsTheCursor : Prop :=
  (∀ a : Half, decode (0x11#8 ++ a) = .ok (.flSetaddr a)) ∧
  ∀ (s : State) (a : Half), ∃ t, exec (.flSetaddr a) s = .next t ∧ t.addr = some a ∧
    nextCommand s t ∧ keepsAllBut [.frame, .cursor] s t

/-- R148, R151: `FL.READ` and `NV.RDB` put the byte at the cursor into `DL`; `NV.RDB` also advances the
cursor. Flash is unchanged. -/
def Obligations.ReadsPutTheByteAtTheCursorIntoDl : Prop :=
  ∀ (s : State) (a : Half), s.addr = some a → s.cfg.inRegion a.toNat = true → s.flBusy = false →
    (∃ t, exec .flRead s = .next t ∧ t.dl = some (s.mem.read a.toNat) ∧ nextCommand s t ∧
      keepsAllBut [.frame, .latch] s t) ∧
    ∃ t, exec .nvRdb s = .next t ∧ t.dl = some (s.mem.read a.toNat) ∧ t.addr = some (a + 1) ∧
      nextCommand s t ∧ keepsAllBut [.frame, .latch, .cursor] s t

/-- R86, R301, R307: the five commands that access flash at the cursor report the first failing check:
`DL_UNDEF` (format B), `CURSOR_UNDEF`, `FLASH_ADDR`, `FLASH_BUSY`. -/
def Obligations.FlashChecksReportTheFirstFailure : Prop :=
  ∀ (s : State) (b : ByteOp) (i : Instr),
    (i = .flErase ∨ i = .flRead ∨ i = .nvRdb ∨ i = .flProg b ∨ i = .nvWrb b) →
    ((i = .flProg b ∨ i = .nvWrb b) → b = .dl → s.dl = none →
      exec i s = .fault (.dlUndef s.info)) ∧
    (((i = .flProg b ∨ i = .nvWrb b) → b = .dl → s.dl ≠ none) →
      (s.addr = none → exec i s = .fault (.cursorUndef s.info)) ∧
      (∀ a, s.addr = some a → s.cfg.inRegion a.toNat = false →
        exec i s = .fault (.flashAddr s.info a)) ∧
      ∀ a, s.addr = some a → s.cfg.inRegion a.toNat = true → s.flBusy = true →
        exec i s = .fault (.flashBusy s.info s.flOp))

/-- R145, R146, R149, R150: the first micro-step of `FL.ERASE`, `FL.PROG`, `NV.WRB` and `NV.SAVE` issues
the operation and leaves flash as it is; `NV.SAVE` first positions the cursor at the slot. -/
def Obligations.FlashCommandsIssueTheirOperation : Prop :=
  (∀ (s : State) (a : Half), s.addr = some a → s.cfg.inRegion a.toNat = true → s.flBusy = false →
    (∃ t, exec .flErase s = .next t ∧ t.flBusy = true ∧
      t.flOp = some (.erase (s.cfg.sectorBase a.toNat)) ∧ goesOnAt .flErase s t ∧
      keepsAllBut [.frame, .engine] s t) ∧
    ∀ (b : ByteOp) (v : Byte), operandIs b s v →
      (∃ t, exec (.flProg b) s = .next t ∧ t.flBusy = true ∧
        t.flOp = some (.program a.toNat v) ∧ goesOnAt .flProg s t ∧
        keepsAllBut [.frame, .engine] s t) ∧
      ∃ t, exec (.nvWrb b) s = .next t ∧ t.flBusy = true ∧
        t.flOp = some (.program a.toNat v) ∧ goesOnAt .nvWrb s t ∧
        keepsAllBut [.frame, .engine] s t) ∧
  ∀ (s : State) (n : BitVec 5),
    (s.flBusy = true → exec (.nvSave n) s = .fault (.flashBusy s.info s.flOp)) ∧
    (s.flBusy = false → ∃ t, exec (.nvSave n) s = .next t ∧ t.flBusy = true ∧
      t.flOp = some (.erase (s.cfg.sectorBase s.cfg.slotAddr.toNat)) ∧
      t.addr = some s.cfg.slotAddr ∧ goesOnAt (.nvSave n.toNat .s2) s t ∧
      keepsAllBut [.frame, .engine, .cursor] s t)

/-- R145, R143, R85: `FL.ERASE`, when nothing interrupts it, makes every byte of the cursor's sector 0xFF
and fresh, and leaves every other byte and the cursor as they were. -/
def Obligations.EraseClearsTheSectorOfTheCursor : Prop :=
  ∀ (s : State) (a : Half), s.running = true → s.atWord 0x120000 → s.addr = some a →
    s.cfg.inRegion a.toNat = true → s.flBusy = false →
    ∃ t, runs flashMoves s t ∧
      (∀ x, s.cfg.sectorBase a.toNat ≤ x → x < s.cfg.sectorBase a.toNat + s.cfg.sectorSize →
        t.mem.read x = 0xFF ∧ t.mem.fresh x = true) ∧
      (∀ x, x < s.cfg.sectorBase a.toNat ∨ s.cfg.sectorBase a.toNat + s.cfg.sectorSize ≤ x →
        t.mem.read x = s.mem.read x ∧ t.mem.fresh x = s.mem.fresh x) ∧
      t.flBusy = false ∧ t.flOp = none ∧ nextCommand s t ∧
      keepsAllBut [.frame, .engine, .flash, .model] s t

/-- R146, R149, R141: `FL.PROG` and `NV.WRB`, when nothing interrupts them, store their byte at the
cursor if that byte of flash is fresh; it is not fresh afterwards; every other byte is as it was.
`NV.WRB` also advances the cursor. (On a byte that is not fresh the value stored is free, and
nothing is said of it.) -/
def Obligations.ProgramStoresTheByteAtTheCursor : Prop :=
  ∀ (s : State) (w : CmdWord) (b : ByteOp) (v : Byte) (a : Half) (i : Instr),
    s.running = true → s.atWord w → decode w = .ok i → (i = .flProg b ∨ i = .nvWrb b) →
    operandIs b s v → s.addr = some a → s.cfg.inRegion a.toNat = true → s.flBusy = false →
    s.mem.wf →
    ∃ t, runs flashMoves s t ∧
      (s.mem.fresh a.toNat = true → t.mem.read a.toNat = v) ∧ t.mem.fresh a.toNat = false ∧
      (∀ x, x ≠ a.toNat → t.mem.read x = s.mem.read x ∧ t.mem.fresh x = s.mem.fresh x) ∧
      (i = .flProg b → t.addr = some a) ∧ (i = .nvWrb b → t.addr = some (a + 1)) ∧
      t.flBusy = false ∧ t.flOp = none ∧ nextCommand s t ∧
      keepsAllBut [.frame, .engine, .flash, .cursor, .model] s t

/-- R147, R141, R143: FlashEngine's step carries out the operation in flight on the target fixed at
issue, and ends it. A byte that is not fresh takes the free value (log 4). -/
def Obligations.EngineCarriesOutTheOperation : Prop :=
  ∀ (s : State) (rest : List Move), s.running = true → s.plan = .flash :: rest → s.flBusy = true →
    s.mem.wf →
    (∀ base, s.flOp = some (.erase base) →
      ∃ t, step s = .next t ∧
        (∀ x, base ≤ x → x < base + s.cfg.sectorSize →
          t.mem.read x = 0xFF ∧ t.mem.fresh x = true) ∧
        (∀ x, x < base ∨ base + s.cfg.sectorSize ≤ x →
          t.mem.read x = s.mem.read x ∧ t.mem.fresh x = s.mem.fresh x) ∧
        t.flBusy = false ∧ t.flOp = none ∧ keepsAllBut [.engine, .flash, .model] s t) ∧
    ∀ a v, s.flOp = some (.program a v) →
      ∃ t, step s = .next t ∧
        t.mem.read a = (if s.mem.fresh a then v else Config.freeByte s.draws) ∧
        t.mem.fresh a = false ∧
        (∀ x, x ≠ a → t.mem.read x = s.mem.read x ∧ t.mem.fresh x = s.mem.fresh x) ∧
        t.flBusy = false ∧ t.flOp = none ∧ keepsAllBut [.engine, .flash, .model] s t

/-- R88, R89, R97: flash changes only in FlashEngine's completion step and in a power loss. -/
def Obligations.FlashChangesOnlyByEngineOrPower : Prop :=
  ∀ s t : State, step s = .next t → t.mem ≠ s.mem →
    (s.move = .flash ∧ s.flBusy = true) ∨ (s.move = .power ∧ s.flBusy = true)

/-- R142: every step keeps the canonical form of the flash array (log 5), and with it that a fresh byte
reads 0xFF. -/
def Obligations.FreshBytesReadErased : Prop :=
  ∀ s t : State, s.mem.wf → step s = .next t → t.mem.wf ∧ (s.freshErased → t.freshErased)

/-- R39, R84-R86: every step keeps that the engine is busy exactly when an operation is in flight and
that the operation's target lies in the region; so no byte outside the region is ever erased,
programmed or drawn. -/
def Obligations.FlashOperationsStayInTheRegion : Prop :=
  ∀ s t : State, s.cfg.valid = true → s.engineSound → step s = .next t →
    t.engineSound ∧ (s.flashInRegion → t.flashInRegion)

/-- R150: `NV.SAVE n`, when nothing interrupts it, leaves the slot holding `ECHO_BUF[0..n)` and the
terminator, the rest of its sector erased, every other byte as it was, and the cursor after the
terminator. -/
def Obligations.SaveStoresTheBufferInTheSlot : Prop :=
  ∀ (s : State) (w : CmdWord) (n : BitVec 5), s.running = true → s.cfg.valid = true → s.mem.wf →
    s.atWord w → decode w = .ok (.nvSave n) → s.flBusy = false →
    (∀ i, i < n.toNat → ∃ v, s.echoBuf[i]? = some (some v)) →
    ∃ t, runs (saveMoves n.toNat) s t ∧
      (∀ i, i < n.toNat → s.echoBuf[i]? = some (some (t.mem.read (s.cfg.slotAddr.toNat + i)))) ∧
      t.mem.read (s.cfg.slotAddr.toNat + n.toNat) = 0x00 ∧
      (∀ i, i ≤ n.toNat → t.mem.fresh (s.cfg.slotAddr.toNat + i) = false) ∧
      (∀ x, s.cfg.sectorBase s.cfg.slotAddr.toNat ≤ x →
        x < s.cfg.sectorBase s.cfg.slotAddr.toNat + s.cfg.sectorSize →
        (x < s.cfg.slotAddr.toNat ∨ s.cfg.slotAddr.toNat + n.toNat < x) →
        t.mem.read x = 0xFF ∧ t.mem.fresh x = true) ∧
      (∀ x, x < s.cfg.sectorBase s.cfg.slotAddr.toNat ∨
        s.cfg.sectorBase s.cfg.slotAddr.toNat + s.cfg.sectorSize ≤ x →
        t.mem.read x = s.mem.read x ∧ t.mem.fresh x = s.mem.fresh x) ∧
      t.addr = some (s.cfg.slotAddr + BitVec.ofNat 16 (n.toNat + 1)) ∧
      t.flBusy = false ∧ t.flOp = none ∧ nextCommand s t ∧
      keepsAllBut [.frame, .engine, .cursor, .flash, .model] s t

/-- R150, R301 (code 6): an `NV.SAVE n` that reaches an undef entry of `ECHO_BUF` stops there, and the
state it stops in is the state before that micro-step. -/
def Obligations.SaveOfAnUndefEntryFaults : Prop :=
  ∀ (s : State) (rest : List Move) (n i : Nat), s.running = true → s.plan = .cpu :: rest →
    s.ctx.micro = some (.nvSave n (.s3 i)) → i < n → s.echoBuf[i]? = some none →
    step s = .next { s with plan := rest, fault := some (.bufUndef s.info i) }

/-- R152, R99: the first micro-step of `NV.LOAD` positions the cursor after the slot's first byte; 0xFF
there ends the command with "absent", any other byte goes on to L2. -/
def Obligations.LoadLooksAtTheFirstByte : Prop :=
  (∀ s : State, s.flBusy = true → exec .nvLoad s = .fault (.flashBusy s.info s.flOp)) ∧
  (∀ s : State, s.flBusy = false → s.mem.read s.cfg.slotAddr.toNat = 0xFF →
    ∃ t, exec .nvLoad s = .next t ∧ t.loadPresent = false ∧ t.loadLen = 0 ∧
      t.loadBuf = s.loadBuf ∧ t.addr = some (s.cfg.slotAddr + 1) ∧ nextCommand s t ∧
      keepsAllBut [.frame, .cursor, .load] s t) ∧
  ∀ s : State, s.flBusy = false → s.mem.read s.cfg.slotAddr.toNat ≠ 0xFF →
    ∃ t, exec .nvLoad s = .next t ∧ t.loadPresent = true ∧ t.loadLen = s.loadLen ∧
      t.loadBuf = s.loadBuf ∧ t.addr = some (s.cfg.slotAddr + 1) ∧
      goesOnAt (.nvLoad (.l2 0 (s.mem.read s.cfg.slotAddr.toNat))) s t ∧
      keepsAllBut [.frame, .cursor, .load] s t

/-- R152: `NV.LOAD`, when nothing interrupts it, reads the slot up to the terminator, or 27 bytes where
there is none, into `LOAD_BUF`; the rest of `LOAD_BUF` keeps its content. -/
def Obligations.LoadReadsUpToTheTerminator : Prop :=
  (∀ (s : State) (k : Nat), s.running = true → s.cfg.valid = true → s.atWord 0x260000 →
    s.flBusy = false → k ≤ 26 → s.mem.read s.cfg.slotAddr.toNat ≠ 0xFF →
    (∀ j, j < k → s.mem.read (s.cfg.slotAddr.toNat + j) ≠ 0x00) →
    s.mem.read (s.cfg.slotAddr.toNat + k) = 0x00 →
    ∃ t, runs (loadMoves k) s t ∧ t.loadPresent = true ∧ t.loadLen.val = k ∧
      (∀ j, j < k → t.loadBuf[j]? = some (some (s.mem.read (s.cfg.slotAddr.toNat + j)))) ∧
      (∀ j, k ≤ j → t.loadBuf[j]? = s.loadBuf[j]?) ∧
      t.addr = some (s.cfg.slotAddr + BitVec.ofNat 16 (k + 1)) ∧ nextCommand s t ∧
      keepsAllBut [.frame, .cursor, .load, .model] s t) ∧
  ∀ s : State, s.running = true → s.cfg.valid = true → s.atWord 0x260000 →
    s.flBusy = false → s.mem.read s.cfg.slotAddr.toNat ≠ 0xFF →
    (∀ j, j < 27 → s.mem.read (s.cfg.slotAddr.toNat + j) ≠ 0x00) →
    ∃ t, runs (loadMoves 27) s t ∧ t.loadPresent = true ∧ t.loadLen.val = 27 ∧
      (∀ j, j < 27 → t.loadBuf[j]? = some (some (s.mem.read (s.cfg.slotAddr.toNat + j)))) ∧
      t.addr = some (s.cfg.slotAddr + 27) ∧ nextCommand s t ∧
      keepsAllBut [.frame, .cursor, .load, .model] s t

/-- R153, the round-trip law: after an `NV.SAVE n` of bytes that hold no 0x00 and do not begin with
0xFF, an `NV.LOAD` in any state with that flash returns exactly those bytes. -/
def Obligations.LoadReturnsWhatSaveStored : Prop :=
  ∀ (s t u : State) (w : CmdWord) (n : BitVec 5), s.running = true → s.cfg.valid = true →
    s.mem.wf → s.atWord w → decode w = .ok (.nvSave n) → s.flBusy = false →
    (∀ i, i < n.toNat → ∃ v, s.echoBuf[i]? = some (some v) ∧ v ≠ 0x00 ∧ (i = 0 → v ≠ 0xFF)) →
    runs (saveMoves n.toNat) s t →
    u.running = true → u.cfg = s.cfg → u.mem = t.mem → u.atWord 0x260000 → u.flBusy = false →
    ∃ v, runs (loadMoves n.toNat) u v ∧ v.loadPresent = true ∧ v.loadLen.val = n.toNat ∧
      ∀ i, i < n.toNat → v.loadBuf[i]? = s.echoBuf[i]?

/-! ### Timer (43_timer_tick.md) -/

/-- R211-R214: the timer commands write the one register they name. A configuration other than mode 1,
gate 0, source 0 is refused; starting an unconfigured timer faults. -/
def Obligations.TimerCommandsWriteTheirRegister : Prop :=
  (∀ s : State, ∃ t, exec (.tmrConfig 1 false false) s = .next t ∧
    t.tmrCfg = some { mode := 1, gate := false, src := false } ∧ t.tCnt = s.tCnt ∧
    t.tRun = s.tRun ∧ t.tf = s.tf ∧ nextCommand s t ∧ keepsAllBut [.frame, .timer] s t) ∧
  (∀ (s : State) (mode : BitVec 2) (gate src : Bool),
    ¬(mode = 1 ∧ gate = false ∧ src = false) →
    exec (.tmrConfig mode gate src) s = .refused (.configNotModelled s.info)) ∧
  (∀ (s : State) (v : Half), ∃ t, exec (.tmrReload v) s = .next t ∧ t.tCnt = v ∧
    t.tmrCfg = s.tmrCfg ∧ t.tRun = s.tRun ∧ t.tf = s.tf ∧ nextCommand s t ∧
    keepsAllBut [.frame, .timer] s t) ∧
  (∀ s : State, s.tmrCfg = none → exec .tmrStart s = .fault (.timerUnconfig s.info)) ∧
  (∀ s : State, s.tmrCfg ≠ none → ∃ t, exec .tmrStart s = .next t ∧ t.tRun = true ∧
    t.tmrCfg = s.tmrCfg ∧ t.tCnt = s.tCnt ∧ t.tf = s.tf ∧ nextCommand s t ∧
    keepsAllBut [.frame, .timer] s t) ∧
  ∀ s : State, ∃ t, exec .tmrStop s = .next t ∧ t.tRun = false ∧ t.tmrCfg = s.tmrCfg ∧
    t.tCnt = s.tCnt ∧ t.tf = s.tf ∧ nextCommand s t ∧ keepsAllBut [.frame, .timer] s t

/-- R216, R212, R217: while the timer runs, each event takes one from `T_CNT`, and `TF` is set by the
event that brings it to 0: the `T_CNT`th one, or the 65536th where `T_CNT` is 0. Nothing else
changes. -/
def Obligations.TimerExpiresAfterItsCount : Prop :=
  ∀ (s : State) (k : Nat), s.running = true → s.tRun = true → 1 ≤ k →
    k ≤ (if s.tCnt = 0 then 65536 else s.tCnt.toNat) →
    ∃ t, runs (List.replicate k .timer) s t ∧ t.tCnt = s.tCnt - BitVec.ofNat 16 k ∧
      t.tf = (s.tf || decide (k = (if s.tCnt = 0 then 65536 else s.tCnt.toNat))) ∧
      t.tmrCfg = s.tmrCfg ∧ t.tRun = true ∧ keepsAllBut [.timer, .model] s t

/-- R213, R38, R45: every step keeps that a running timer is configured, that a byte in flight was
written on a configured line, and that a receive-ready line holds a byte. -/
def Obligations.PeripheralFlagsKeepTheirPromise : Prop :=
  ∀ s t : State, s.timerSound → s.line0.sound → s.line1.sound → step s = .next t →
    t.timerSound ∧ t.line0.sound ∧ t.line1.sound

/-! ### Serial lines (42_serial.md) -/

/-- R181, R187: `SER.WRITE` and the first micro-step of `SER.SENDB` put the byte in flight on their line
and leave `TI` alone; the first failing check is the one reported. -/
def Obligations.WritesPutTheByteInFlight : Prop :=
  ∀ (s : State) (k : Line) (b : ByteOp), s.cfg.hasLine k = true →
    (b = .dl → s.dl = none →
      exec (.serWrite k b) s = .fault (.dlUndef s.info) ∧
      exec (.serSendb k b) s = .fault (.dlUndef s.info)) ∧
    ∀ v, operandIs b s v →
      ((s.line k).cfg = none →
        exec (.serWrite k b) s = .fault (.lineUnconfig s.info k) ∧
        exec (.serSendb k b) s = .fault (.lineUnconfig s.info k)) ∧
      ((s.line k).cfg ≠ none → (s.line k).txBusy = true →
        exec (.serWrite k b) s = .fault (.txBusy s.info k) ∧
        exec (.serSendb k b) s = .fault (.txBusy s.info k)) ∧
      ((s.line k).cfg ≠ none → (s.line k).txBusy = false →
        (∃ t, exec (.serWrite k b) s = .next t ∧
          t.line k = { s.line k with txData := some v, txBusy := true } ∧ nextCommand s t ∧
          keepsAllBut [.frame, .line k] s t) ∧
        ∃ t, exec (.serSendb k b) s = .next t ∧
          t.line k = { s.line k with txData := some v, txBusy := true } ∧
          goesOnAt (.sendb k .m2) s t ∧ keepsAllBut [.frame, .line k] s t)

/-- R182-R186: the serial queries put the line's register or flag into `DL`, the clears clear the one
flag they name, and nothing else changes. -/
def Obligations.SerialQueriesAndClears : Prop :=
  ∀ (s : State) (k : Line), s.cfg.hasLine k = true →
    (∃ t, exec (.serRead k) s = .next t ∧ t.dl = (s.line k).rxData ∧ nextCommand s t ∧
      keepsAllBut [.frame, .latch] s t) ∧
    (∃ t, exec (.serTxdone k) s = .next t ∧
      t.dl = some (if (s.line k).ti then 0x01 else 0x00) ∧ nextCommand s t ∧
      keepsAllBut [.frame, .latch] s t) ∧
    (∃ t, exec (.serRxrdy k) s = .next t ∧
      t.dl = some (if (s.line k).ri then 0x01 else 0x00) ∧ nextCommand s t ∧
      keepsAllBut [.frame, .latch] s t) ∧
    (∃ t, exec (.serClrtx k) s = .next t ∧ t.line k = { s.line k with ti := false } ∧
      nextCommand s t ∧ keepsAllBut [.frame, .line k] s t) ∧
    ∃ t, exec (.serClrrx k) s = .next t ∧ t.line k = { s.line k with ri := false } ∧
      nextCommand s t ∧ keepsAllBut [.frame, .line k] s t

/-- R189: `SER.CONFIG` admits mode 1 without multi-drop, writes the whole record and leaves a byte in
flight alone; any other value is refused. -/
def Obligations.SerialConfigWritesTheRecord : Prop :=
  ∀ (s : State) (k : Line) (mode : BitVec 2) (md : Bool) (baud : BitVec 2) (dbl : Bool),
    s.cfg.hasLine k = true →
    (mode = 1 → md = false → ∃ t, exec (.serConfig k mode md baud dbl) s = .next t ∧
      t.line k = { s.line k with
        cfg := some { mode := mode, md := md, baud := baud, dbl := dbl } } ∧
      nextCommand s t ∧ keepsAllBut [.frame, .line k] s t) ∧
    (¬(mode = 1 ∧ md = false) →
      exec (.serConfig k mode md baud dbl) s = .refused (.configNotModelled s.info))

/-- R115, and the model's reading of log 10: with one line, every serial command of line 1 is refused,
whatever its operands. -/
def Obligations.CommandsOfAnAbsentLineAreRefused : Prop :=
  ∀ (s : State) (b : ByteOp) (mode : BitVec 2) (md : Bool) (baud : BitVec 2) (dbl : Bool) (i : Instr),
    s.cfg.nLines = .one →
    (i = .serWrite .l1 b ∨ i = .serRead .l1 ∨ i = .serTxdone .l1 ∨ i = .serClrtx .l1 ∨
      i = .serRxrdy .l1 ∨ i = .serClrrx .l1 ∨ i = .serConfig .l1 mode md baud dbl ∨
      i = .serSendb .l1 b) →
    exec i s = .refused (.noSuchLine s.info)

/-- R187, R188, R194, R354: `SER.SENDB` on an idle line with `TI` clear, when nothing interrupts it,
sends exactly its byte and leaves the line idle with `TI` clear. With a stale `TI = 1` it ends while
its byte is still in flight and nothing is sent, and another send on the line then faults
`TX_BUSY`. -/
def Obligations.SendbSendsItsByte : Prop :=
  ∀ (s : State) (w : CmdWord) (k : Line) (b : ByteOp) (v : Byte), s.running = true → s.atWord w →
    decode w = .ok (.serSendb k b) → s.cfg.hasLine k = true → operandIs b s v →
    (s.line k).cfg ≠ none → (s.line k).txBusy = false →
    ((s.line k).ti = false →
      ∃ t, runs (sendMoves k) s t ∧ t.trace = s.trace ++ [.tx k v] ∧
        t.line k = { s.line k with txData := some v, txBusy := false, ti := false } ∧
        nextCommand s t ∧ keepsAllBut [.frame, .line k, .trace, .model] s t) ∧
    ((s.line k).ti = true →
      ∃ t, runs [.cpu, .cpu, .cpu] s t ∧
        t.line k = { s.line k with txData := some v, txBusy := true, ti := false } ∧
        nextCommand s t ∧ keepsAllBut [.frame, .line k, .model] s t ∧
        ∀ x : Byte, exec (.serSendb k (.imm x)) t = .fault (.txBusy t.info k))

/-- R187, R303, R360: a `SER.SENDB`, or the send inside an `ECHO.ONBYTE` or an `ECHO.REPLAY`, whose
acknowledgement never comes holds for ever, with no fault and no change. -/
def Obligations.SendbWithoutAcknowledgementHoldsForEver : Prop :=
  ∀ (s : State) (k : Line) (m : Micro) (n : Nat), s.running = true → s.ctx.micro = some m →
    (m = .sendb k .m2 ∨
      k = s.cfg.echoLine ∧
        ((∃ start len i, m = .onbyte start len (.e2Send i .m2)) ∨
          ∃ j, m = .replay (.p3Send j .m2))) →
    (s.line k).ti = false → runs (List.replicate n .cpu) s { s with plan := [] }

/-- R194, R195: a line's completion step sends the byte in flight; its delivery step is seen in the
trace, and the byte is received, dropped, or meets an unread byte, by the choices of the move. -/
def Obligations.LineAgentsSendAndDeliver : Prop :=
  ∀ (s : State) (k : Line) (rest : List Move), s.running = true → s.cfg.hasLine k = true →
    (∀ b, s.plan = .lineTx k :: rest → (s.line k).txBusy = true → (s.line k).txData = some b →
      ∃ t, step s = .next t ∧ t.line k = { s.line k with txBusy := false, ti := true } ∧
        t.trace = s.trace ++ [.tx k b] ∧ keepsAllBut [.line k, .trace, .model] s t) ∧
    ∀ b received newest, s.plan = .lineRx k b received newest :: rest →
      ∃ t, step s = .next t ∧ t.trace = s.trace ++ [.rx k b] ∧
        keepsAllBut [.line k, .trace, .model] s t ∧
        ((s.line k).cfg = none → received = false → t.line k = s.line k) ∧
        (((s.line k).cfg ≠ none ∨ received = true) → (s.line k).ri = false →
          t.line k = { s.line k with rxData := some b, ri := true }) ∧
        (((s.line k).cfg ≠ none ∨ received = true) → (s.line k).ri = true →
          t.line k = { s.line k with rxData := (if newest then some b else (s.line k).rxData) })

/-- R193: the commands of one line and the later micro-steps of its `SER.SENDB` touch no register of the
other line, and the line's agent touches only that line's registers (and the trace, where it emits
its event). -/
def Obligations.LinesShareNoState : Prop :=
  ∀ (s t : State) (k j : Line), j ≠ k →
    (∀ (i : Instr) (b : ByteOp) (mode : BitVec 2) (md : Bool) (baud : BitVec 2) (dbl : Bool),
      (i = .serWrite k b ∨ i = .serRead k ∨ i = .serTxdone k ∨ i = .serClrtx k ∨
        i = .serRxrdy k ∨ i = .serClrrx k ∨ i = .serConfig k mode md baud dbl ∨
        i = .serSendb k b) → exec i s = .next t → t.line j = s.line j) ∧
    (∀ p, resume (.sendb k p) s = .next t → t.line j = s.line j) ∧
    keepsAllBut [.line k, .trace, .model] s (lineComplete k s) ∧
    ∀ b received newest, keepsAllBut [.line k, .trace] s (lineDeliver k b received newest s)

/-! ### LED scheduler (44_led.md) -/

/-- R231, R233: what one `LED.ADVANCE` does in each phase; a counter that is not 1 only counts down
(wrapping from 0), and an event is emitted exactly when `LED_ON` changes. -/
def Obligations.AdvanceCountsDownAndTurnsThePhase : Prop :=
  decode 0x720000 = .ok .ledAdvance ∧
  ∀ s : State, ∃ t, exec .ledAdvance s = .next t ∧ nextCommand s t ∧
    keepsAllBut [.frame, .led, .trace] s t ∧
    (s.ledState = .lit → s.litRem ≠ 1 → t.ledState = .lit ∧ t.litRem = s.litRem - 1 ∧
      t.offRem = s.offRem ∧ t.duty = s.duty ∧ t.ledOn = s.ledOn ∧ t.trace = s.trace) ∧
    (s.ledState = .lit → s.litRem = 1 → t.ledState = .unlit ∧ t.litRem = 0 ∧ t.offRem = 1000 ∧
      t.duty = s.duty ∧ t.ledOn = false ∧
      t.trace = s.trace ++ (if s.ledOn then [.led (s.cfg.pin false)] else [])) ∧
    (s.ledState = .unlit → s.offRem ≠ 1 → t.ledState = .unlit ∧ t.offRem = s.offRem - 1 ∧
      t.litRem = s.litRem ∧ t.duty = s.duty ∧ t.ledOn = s.ledOn ∧ t.trace = s.trace) ∧
    (s.ledState = .unlit → s.offRem = 1 → t.ledState = .lit ∧ t.offRem = 0 ∧ t.ledOn = true ∧
      t.trace = s.trace ++ (if s.ledOn then [] else [.led (s.cfg.pin true)]) ∧
      (s.cfg.ledVariant = .fixed → t.litRem = 1000 ∧ t.duty = s.duty) ∧
      (s.cfg.ledVariant = .breathing → t.litRem.toNat = dutyNumber s.duty * 1000 ∧
        dutyNumber t.duty = if dutyNumber s.duty = 1 then 5 else dutyNumber s.duty - 1))

/-- R232: `LED.INIT` re-arms the scheduler to its reset values, and emits an event only when the LED
was off. -/
def Obligations.LedInitRearmsTheScheduler : Prop :=
  decode 0x710000 = .ok .ledInit ∧
  ∀ s : State, ∃ t, exec .ledInit s = .next t ∧ nextCommand s t ∧
    keepsAllBut [.frame, .led, .trace] s t ∧ t.ledState = .lit ∧ t.ledOn = true ∧
    t.offRem = 1000 ∧ t.trace = s.trace ++ (if s.ledOn then [] else [.led (s.cfg.pin true)]) ∧
    (s.cfg.ledVariant = .fixed → t.litRem = 1000 ∧ t.duty = s.duty) ∧
    (s.cfg.ledVariant = .breathing → t.litRem = 5000 ∧ t.duty = .d4)

/-- R237: from `Lit` with `LIT_REM = n`, `n` advances and no fewer end the phase, and `OFF_REM` is then
armed to 1000. -/
def Obligations.LitPhaseLastsItsCount : Prop :=
  (∀ u : State, exec .ledAdvance u = .next (ledTick u).finish) ∧
  ∀ (s : State) (n : Nat), s.ledState = .lit → s.litRem.toNat = n → 1 ≤ n →
    (∀ j, j < n → (ledTick^[j] s).ledState = .lit ∧ (ledTick^[j] s).litRem.toNat = n - j) ∧
    (ledTick^[n] s).ledState = .unlit ∧ (ledTick^[n] s).offRem = 1000 ∧
    (ledTick^[n] s).ledOn = false

/-- R235: in the Fixed variant, from the armed state, the LED turns off after 1000 advances and on again
after 2000, where the scheduler is as it was but for a spent `OFF_REM`. -/
def Obligations.FixedBlinkPeriodIs2000Ticks : Prop :=
  ∀ s : State, s.cfg.ledVariant = .fixed → s.ledState = .lit → s.litRem = 1000 → s.ledOn = true →
    (ledTick^[1000] s).ledState = .unlit ∧
    (ledTick^[1000] s).trace = s.trace ++ [.led (s.cfg.pin false)] ∧
    ledTick^[2000] s =
      { s with offRem := 0
               trace := s.trace ++ [.led (s.cfg.pin false), .led (s.cfg.pin true)] }

/-- R236: in the Breathing variant, from the armed state, the lit phases last 5000, 4000, 3000, 2000 and
1000 advances, each followed by 1000 unlit, and after 20000 advances the cycle begins again. (`a` is
the advance after which a lit phase begins, `len` its length.) -/
def Obligations.BreathingCycleIs20000Ticks : Prop :=
  ∀ s : State, s.cfg.ledVariant = .breathing → s.ledState = .lit → s.litRem = 5000 →
    s.duty = .d4 → s.ledOn = true →
    (∀ a len : Nat,
      a = 0 ∧ len = 5000 ∨ a = 6000 ∧ len = 4000 ∨ a = 11000 ∧ len = 3000 ∨
        a = 15000 ∧ len = 2000 ∨ a = 18000 ∧ len = 1000 →
      (∀ j, j < len → (ledTick^[a + j] s).ledState = .lit ∧ (ledTick^[a + j] s).ledOn = true ∧
        (ledTick^[a + j] s).litRem.toNat = len - j) ∧
      ∀ j, j < 1000 → (ledTick^[a + len + j] s).ledState = .unlit ∧
        (ledTick^[a + len + j] s).ledOn = false ∧
        (ledTick^[a + len + j] s).offRem.toNat = 1000 - j) ∧
    ledTick^[20000] s =
      { s with offRem := 0
               trace := s.trace ++
                 (List.replicate 5 [.led (s.cfg.pin false), .led (s.cfg.pin true)]).flatten }

/-- R231-R233, R238: every step keeps that `LED_ON` follows `LED_STATE` and that the counter of the
current phase is not 0. -/
def Obligations.LedFollowsItsState : Prop :=
  ∀ s t : State, s.ledSound → step s = .next t → t.ledSound

/-! ### Echo service (45_echo.md) -/

/-- R255, R253: `ECHO.ONBYTE` of a byte that is no letter ends in one micro-step and changes nothing,
even while an echo is in flight. -/
def Obligations.NonLettersAreDroppedSilently : Prop :=
  ∀ (s : State) (b : ByteOp) (v : Byte), operandIs b s v →
    ¬(0x61 ≤ v.toNat ∧ v.toNat ≤ 0x7A) → ¬(0x41 ≤ v.toNat ∧ v.toNat ≤ 0x5A) →
    ∃ t, exec (.echoOnbyte b) s = .next t ∧ nextCommand s t ∧ keepsAllBut [.frame] s t

/-- R252 (E1), R253, R251: `ECHO.ONBYTE` of a letter sets `ECHO_BUSY` and goes on to E2 with the run's
start letter and length; while an echo is in flight it faults. -/
def Obligations.LetterStartsARun : Prop :=
  ∀ (s : State) (b : ByteOp),
    (b = .dl → s.dl = none → exec (.echoOnbyte b) s = .fault (.dlUndef s.info)) ∧
    ∀ (v start : Byte), operandIs b s v →
      (0x61 ≤ v.toNat ∧ v.toNat ≤ 0x7A ∧ start = 0x61 ∨
        0x41 ≤ v.toNat ∧ v.toNat ≤ 0x5A ∧ start = 0x41) →
      (s.echoBusy = true → exec (.echoOnbyte b) s = .fault (.echoReentry s.info)) ∧
      (s.echoBusy = false → ∃ t, exec (.echoOnbyte b) s = .next t ∧ t.echoBusy = true ∧
        t.echoBuf = s.echoBuf ∧
        goesOnAt (.onbyte start (v.toNat - start.toNat + 1) (.e2 0)) s t ∧
        keepsAllBut [.frame, .echo] s t)

/-- R265, R252, R150: `ECHO.ONBYTE` of a letter, when nothing interrupts it, sends exactly the letters
from the start letter to that letter in order, and leaves them and a terminator in the slot and in
`ECHO_BUF`. The number of its micro-steps rests on log 11 (DEDUCED). -/
def Obligations.EchoSendsAndStoresTheRun : Prop :=
  ∀ (s : State) (w : CmdWord) (b : ByteOp) (v start : Byte) (len : Nat), s.running = true →
    s.cfg.valid = true → s.mem.wf → s.atWord w → decode w = .ok (.echoOnbyte b) →
    operandIs b s v →
    (0x61 ≤ v.toNat ∧ v.toNat ≤ 0x7A ∧ start = 0x61 ∨
      0x41 ≤ v.toNat ∧ v.toNat ≤ 0x5A ∧ start = 0x41) →
    len = v.toNat - start.toNat + 1 →
    s.echoBusy = false → s.flBusy = false → (s.line s.cfg.echoLine).cfg ≠ none →
    (s.line s.cfg.echoLine).txBusy = false → (s.line s.cfg.echoLine).ti = false →
    ∃ t, runs (echoMoves s.cfg.echoLine len) s t ∧
      t.trace = s.trace ++
        (List.range len).map (fun i => .tx s.cfg.echoLine (start + BitVec.ofNat 8 i)) ∧
      (∀ i, i < len → t.mem.read (s.cfg.slotAddr.toNat + i) = start + BitVec.ofNat 8 i ∧
        t.echoBuf[i]? = some (some (start + BitVec.ofNat 8 i))) ∧
      t.mem.read (s.cfg.slotAddr.toNat + len) = 0x00 ∧ t.echoBuf[len]? = some (some 0x00) ∧
      (∀ i, len < i → t.echoBuf[i]? = s.echoBuf[i]?) ∧
      (∀ x, x < s.cfg.sectorBase s.cfg.slotAddr.toNat ∨
        s.cfg.sectorBase s.cfg.slotAddr.toNat + s.cfg.sectorSize ≤ x →
        t.mem.read x = s.mem.read x ∧ t.mem.fresh x = s.mem.fresh x) ∧
      t.addr = some (s.cfg.slotAddr + BitVec.ofNat 16 (len + 1)) ∧
      t.echoBusy = false ∧ t.flBusy = false ∧ t.flOp = none ∧
      (t.line s.cfg.echoLine).txBusy = false ∧ (t.line s.cfg.echoLine).ti = false ∧
      nextCommand s t ∧
      keepsAllBut [.frame, .line s.cfg.echoLine, .trace, .flash, .cursor, .engine, .echo, .model] s t

/-- R256, R251: `ECHO.REPLAY` sets `ECHO_BUSY` and goes on to P1, or faults while an echo is in flight;
with an absent slot and nothing interrupting it, it ends with no output. -/
def Obligations.ReplayOfAnAbsentSlotSendsNothing : Prop :=
  (∀ s : State, s.echoBusy = true → exec .echoReplay s = .fault (.echoReentry s.info)) ∧
  (∀ s : State, s.echoBusy = false → ∃ t, exec .echoReplay s = .next t ∧ t.echoBusy = true ∧
    t.echoBuf = s.echoBuf ∧ goesOnAt (.replay .p1) s t ∧ keepsAllBut [.frame, .echo] s t) ∧
  ∀ s : State, s.running = true → s.atWord 0x820000 → s.echoBusy = false → s.flBusy = false →
    s.mem.read s.cfg.slotAddr.toNat = 0xFF →
    ∃ t, runs [.cpu, .cpu, .cpu, .cpu] s t ∧ t.loadPresent = false ∧ t.loadLen = 0 ∧
      t.loadBuf = s.loadBuf ∧ t.addr = some (s.cfg.slotAddr + 1) ∧ nextCommand s t ∧
      keepsAllBut [.frame, .cursor, .load, .model] s t

/-- R256, R257, R266: `ECHO.REPLAY` of a slot that holds printable bytes up to a terminator, or 27 of
them with none, when nothing interrupts it, sends exactly those bytes in order and leaves flash as it
was. The number of its micro-steps rests on log 11 (DEDUCED). -/
def Obligations.ReplaySendsTheStoredRun : Prop :=
  ∀ (s : State) (k : Nat), s.running = true → s.cfg.valid = true → s.atWord 0x820000 →
    s.echoBusy = false → s.flBusy = false →
    (k ≤ 26 ∧ s.mem.read (s.cfg.slotAddr.toNat + k) = 0x00 ∨ k = 27) →
    (∀ j, j < k → 0x20 ≤ (s.mem.read (s.cfg.slotAddr.toNat + j)).toNat ∧
      (s.mem.read (s.cfg.slotAddr.toNat + j)).toNat ≤ 0x7E) →
    (s.line s.cfg.echoLine).cfg ≠ none → (s.line s.cfg.echoLine).txBusy = false →
    (s.line s.cfg.echoLine).ti = false →
    ∃ t, runs (replayMoves s.cfg.echoLine k) s t ∧
      t.trace = s.trace ++ (List.range k).map
        (fun j => .tx s.cfg.echoLine (s.mem.read (s.cfg.slotAddr.toNat + j))) ∧
      t.loadPresent = true ∧ t.loadLen.val = k ∧ t.echoBusy = false ∧ t.echoBuf = s.echoBuf ∧
      (t.line s.cfg.echoLine).txBusy = false ∧ (t.line s.cfg.echoLine).ti = false ∧
      nextCommand s t ∧
      keepsAllBut [.frame, .line s.cfg.echoLine, .trace, .cursor, .load, .echo, .model] s t

/-- R256, R257: at P3, a byte that is not printable, or the end of the loaded run, ends the replay with
nothing sent. -/
def Obligations.ReplayStopsAtANonPrintableByte : Prop :=
  ∀ (s : State) (rest : List Move) (j : Nat), s.running = true → s.plan = .cpu :: rest →
    s.ctx.micro = some (.replay (.p3 j)) →
    (j = s.loadLen.val ∨
      j < 27 ∧ ∃ b : Byte, s.loadBuf[j]? = some (some b) ∧ (b.toNat < 0x20 ∨ 0x7E < b.toNat)) →
    ∃ t, step s = .next t ∧ goesOnAt (.replay .p4) s t ∧ keepsAllBut [.frame, .model] s t

/-! ### Reset and power (10_state.md R47, 70_reset_and_hazards.md) -/

/-- R47, R340: every element after a launch, whatever the parameters, ROM and flash content (`T_CNT` is
a draw and nothing is said of it). -/
def Obligations.LaunchHoldsTheResetValues : Prop :=
  ∀ (cfg : Params) (rom : List CmdWord) (mem : Memory) (s : State), s = State.launch cfg rom mem →
    s.main = { pc := 0x0000, past := false, micro := none } ∧ s.handlers = [] ∧ s.dl = none ∧
    s.ien = { ea := false, tick := false, rx0 := false, rx1 := false } ∧ s.tmrCfg = none ∧
    s.tRun = false ∧ s.tf = false ∧
    (∀ k, s.line k = { cfg := none, txData := none, txBusy := false, ti := false, rxData := none,
                       ri := false }) ∧
    s.addr = none ∧ s.flBusy = false ∧ s.flOp = none ∧ s.mem = mem ∧ s.ledState = .lit ∧
    s.ledOn = true ∧ (cfg.ledVariant = .fixed → s.litRem = 1000) ∧
    (cfg.ledVariant = .breathing → s.litRem = 5000) ∧ s.offRem = 1000 ∧ s.duty = .d4 ∧
    (∀ i, i < 27 → s.echoBuf[i]? = some none ∧ s.loadBuf[i]? = some none) ∧ s.echoBusy = false ∧
    s.loadPresent = false ∧ s.loadLen = 0 ∧ s.fault = none ∧ s.refused = none ∧ s.trace = []

/-- R342, R142: the invariants stated above hold after a FactoryErased launch of any ROM with any
parameters. And so at reset: that `State.reset` is such a launch, with the example parameters, is the
model's own choice (log 1 and log 5, DESIGN CHOICE); they lie in the domains of R8 and R9. -/
def Obligations.LaunchMeetsTheInvariants : Prop :=
  validLaunch exampleParams (defaultRom exampleParams) Memory.erased ∧
  State.reset = State.launch exampleParams (defaultRom exampleParams) Memory.erased ∧
  ∀ (cfg : Params) (rom : List CmdWord) (s : State), s = State.launch cfg rom Memory.erased →
    s.nested ∧ s.mem.wf ∧ s.freshErased ∧ s.engineSound ∧ s.flashInRegion ∧ s.timerSound ∧
    s.line0.sound ∧ s.line1.sound ∧ s.ledSound

/-- R341, R98: a power cycle resets every element but the flash array, the parameters and the trace,
which gets `POWER_LOSS` and `POWER_ON`; the bytes of an operation in flight are no longer fresh,
and every other byte of flash is as it was. (The values of the bytes in flight are free, and nothing
is said of them.) -/
def Obligations.PowerCycleKeepsOnlyFlash : Prop :=
  ∀ (s : State) (rest : List Move), s.running = true → s.plan = .power :: rest →
    ∃ (t : State) (mem : Memory) (draws : Nat), step s = .next t ∧
      t = State.atReset s.cfg s.rom mem (s.trace ++ [.powerLoss, .powerOn]) rest draws ∧
      (s.flBusy = false → mem = s.mem) ∧
      (∀ base, s.flBusy = true → s.flOp = some (.erase base) →
        (∀ x, base ≤ x → x < base + s.cfg.sectorSize → mem.fresh x = false) ∧
        ∀ x, x < base ∨ base + s.cfg.sectorSize ≤ x →
          mem.read x = s.mem.read x ∧ mem.fresh x = s.mem.fresh x) ∧
      ∀ a v, s.flBusy = true → s.flOp = some (.program a v) →
        mem.fresh a = false ∧
        ∀ x, x ≠ a → mem.read x = s.mem.read x ∧ mem.fresh x = s.mem.fresh x

/-- R8, R33, R96, R58: no step changes the parameters or the ROM, and the trace only grows. -/
def Obligations.StepsKeepTheRunAndExtendTheTrace : Prop :=
  ∀ s t : State, step s = .next t → t.cfg = s.cfg ∧ t.rom = s.rom ∧ s.trace <+: t.trace
end

