-- ==== Sys2Proof/Laws/State.lean ====
section
/-! SUPPORT. For every named update of the state and every field: what the field is after the update.
One lemma each, true by rfl, so that no proof unfolds a record update. -/

namespace Sys2Proof.Machine

variable (s : State)

/-! ### `State.setCtx` -/

@[simp] theorem State.setCtx_cfg (c : Ctx) : (s.setCtx c).cfg = s.cfg := rfl
@[simp] theorem State.setCtx_rom (c : Ctx) : (s.setCtx c).rom = s.rom := rfl
@[simp] theorem State.setCtx_dl (c : Ctx) : (s.setCtx c).dl = s.dl := rfl
@[simp] theorem State.setCtx_ien (c : Ctx) : (s.setCtx c).ien = s.ien := rfl
@[simp] theorem State.setCtx_tmrCfg (c : Ctx) : (s.setCtx c).tmrCfg = s.tmrCfg := rfl
@[simp] theorem State.setCtx_tCnt (c : Ctx) : (s.setCtx c).tCnt = s.tCnt := rfl
@[simp] theorem State.setCtx_tRun (c : Ctx) : (s.setCtx c).tRun = s.tRun := rfl
@[simp] theorem State.setCtx_tf (c : Ctx) : (s.setCtx c).tf = s.tf := rfl
@[simp] theorem State.setCtx_line0 (c : Ctx) : (s.setCtx c).line0 = s.line0 := rfl
@[simp] theorem State.setCtx_line1 (c : Ctx) : (s.setCtx c).line1 = s.line1 := rfl
@[simp] theorem State.setCtx_addr (c : Ctx) : (s.setCtx c).addr = s.addr := rfl
@[simp] theorem State.setCtx_flBusy (c : Ctx) : (s.setCtx c).flBusy = s.flBusy := rfl
@[simp] theorem State.setCtx_flOp (c : Ctx) : (s.setCtx c).flOp = s.flOp := rfl
@[simp] theorem State.setCtx_mem (c : Ctx) : (s.setCtx c).mem = s.mem := rfl
@[simp] theorem State.setCtx_ledState (c : Ctx) : (s.setCtx c).ledState = s.ledState := rfl
@[simp] theorem State.setCtx_litRem (c : Ctx) : (s.setCtx c).litRem = s.litRem := rfl
@[simp] theorem State.setCtx_offRem (c : Ctx) : (s.setCtx c).offRem = s.offRem := rfl
@[simp] theorem State.setCtx_duty (c : Ctx) : (s.setCtx c).duty = s.duty := rfl
@[simp] theorem State.setCtx_ledOn (c : Ctx) : (s.setCtx c).ledOn = s.ledOn := rfl
@[simp] theorem State.setCtx_echoBuf (c : Ctx) : (s.setCtx c).echoBuf = s.echoBuf := rfl
@[simp] theorem State.setCtx_echoBusy (c : Ctx) : (s.setCtx c).echoBusy = s.echoBusy := rfl
@[simp] theorem State.setCtx_loadPresent (c : Ctx) : (s.setCtx c).loadPresent = s.loadPresent := rfl
@[simp] theorem State.setCtx_loadLen (c : Ctx) : (s.setCtx c).loadLen = s.loadLen := rfl
@[simp] theorem State.setCtx_loadBuf (c : Ctx) : (s.setCtx c).loadBuf = s.loadBuf := rfl
@[simp] theorem State.setCtx_fault (c : Ctx) : (s.setCtx c).fault = s.fault := rfl
@[simp] theorem State.setCtx_refused (c : Ctx) : (s.setCtx c).refused = s.refused := rfl
@[simp] theorem State.setCtx_trace (c : Ctx) : (s.setCtx c).trace = s.trace := rfl
@[simp] theorem State.setCtx_plan (c : Ctx) : (s.setCtx c).plan = s.plan := rfl
@[simp] theorem State.setCtx_draws (c : Ctx) : (s.setCtx c).draws = s.draws := rfl

/-! ### `State.setMicro` -/

@[simp] theorem State.setMicro_cfg (m : Micro) : (s.setMicro m).cfg = s.cfg := rfl
@[simp] theorem State.setMicro_rom (m : Micro) : (s.setMicro m).rom = s.rom := rfl
@[simp] theorem State.setMicro_dl (m : Micro) : (s.setMicro m).dl = s.dl := rfl
@[simp] theorem State.setMicro_ien (m : Micro) : (s.setMicro m).ien = s.ien := rfl
@[simp] theorem State.setMicro_tmrCfg (m : Micro) : (s.setMicro m).tmrCfg = s.tmrCfg := rfl
@[simp] theorem State.setMicro_tCnt (m : Micro) : (s.setMicro m).tCnt = s.tCnt := rfl
@[simp] theorem State.setMicro_tRun (m : Micro) : (s.setMicro m).tRun = s.tRun := rfl
@[simp] theorem State.setMicro_tf (m : Micro) : (s.setMicro m).tf = s.tf := rfl
@[simp] theorem State.setMicro_line0 (m : Micro) : (s.setMicro m).line0 = s.line0 := rfl
@[simp] theorem State.setMicro_line1 (m : Micro) : (s.setMicro m).line1 = s.line1 := rfl
@[simp] theorem State.setMicro_addr (m : Micro) : (s.setMicro m).addr = s.addr := rfl
@[simp] theorem State.setMicro_flBusy (m : Micro) : (s.setMicro m).flBusy = s.flBusy := rfl
@[simp] theorem State.setMicro_flOp (m : Micro) : (s.setMicro m).flOp = s.flOp := rfl
@[simp] theorem State.setMicro_mem (m : Micro) : (s.setMicro m).mem = s.mem := rfl
@[simp] theorem State.setMicro_ledState (m : Micro) : (s.setMicro m).ledState = s.ledState := rfl
@[simp] theorem State.setMicro_litRem (m : Micro) : (s.setMicro m).litRem = s.litRem := rfl
@[simp] theorem State.setMicro_offRem (m : Micro) : (s.setMicro m).offRem = s.offRem := rfl
@[simp] theorem State.setMicro_duty (m : Micro) : (s.setMicro m).duty = s.duty := rfl
@[simp] theorem State.setMicro_ledOn (m : Micro) : (s.setMicro m).ledOn = s.ledOn := rfl
@[simp] theorem State.setMicro_echoBuf (m : Micro) : (s.setMicro m).echoBuf = s.echoBuf := rfl
@[simp] theorem State.setMicro_echoBusy (m : Micro) : (s.setMicro m).echoBusy = s.echoBusy := rfl
@[simp] theorem State.setMicro_loadPresent (m : Micro) : (s.setMicro m).loadPresent = s.loadPresent := rfl
@[simp] theorem State.setMicro_loadLen (m : Micro) : (s.setMicro m).loadLen = s.loadLen := rfl
@[simp] theorem State.setMicro_loadBuf (m : Micro) : (s.setMicro m).loadBuf = s.loadBuf := rfl
@[simp] theorem State.setMicro_fault (m : Micro) : (s.setMicro m).fault = s.fault := rfl
@[simp] theorem State.setMicro_refused (m : Micro) : (s.setMicro m).refused = s.refused := rfl
@[simp] theorem State.setMicro_trace (m : Micro) : (s.setMicro m).trace = s.trace := rfl
@[simp] theorem State.setMicro_plan (m : Micro) : (s.setMicro m).plan = s.plan := rfl
@[simp] theorem State.setMicro_draws (m : Micro) : (s.setMicro m).draws = s.draws := rfl

/-! ### `State.finish` -/

@[simp] theorem State.finish_cfg : (s.finish).cfg = s.cfg := rfl
@[simp] theorem State.finish_rom : (s.finish).rom = s.rom := rfl
@[simp] theorem State.finish_dl : (s.finish).dl = s.dl := rfl
@[simp] theorem State.finish_ien : (s.finish).ien = s.ien := rfl
@[simp] theorem State.finish_tmrCfg : (s.finish).tmrCfg = s.tmrCfg := rfl
@[simp] theorem State.finish_tCnt : (s.finish).tCnt = s.tCnt := rfl
@[simp] theorem State.finish_tRun : (s.finish).tRun = s.tRun := rfl
@[simp] theorem State.finish_tf : (s.finish).tf = s.tf := rfl
@[simp] theorem State.finish_line0 : (s.finish).line0 = s.line0 := rfl
@[simp] theorem State.finish_line1 : (s.finish).line1 = s.line1 := rfl
@[simp] theorem State.finish_addr : (s.finish).addr = s.addr := rfl
@[simp] theorem State.finish_flBusy : (s.finish).flBusy = s.flBusy := rfl
@[simp] theorem State.finish_flOp : (s.finish).flOp = s.flOp := rfl
@[simp] theorem State.finish_mem : (s.finish).mem = s.mem := rfl
@[simp] theorem State.finish_ledState : (s.finish).ledState = s.ledState := rfl
@[simp] theorem State.finish_litRem : (s.finish).litRem = s.litRem := rfl
@[simp] theorem State.finish_offRem : (s.finish).offRem = s.offRem := rfl
@[simp] theorem State.finish_duty : (s.finish).duty = s.duty := rfl
@[simp] theorem State.finish_ledOn : (s.finish).ledOn = s.ledOn := rfl
@[simp] theorem State.finish_echoBuf : (s.finish).echoBuf = s.echoBuf := rfl
@[simp] theorem State.finish_echoBusy : (s.finish).echoBusy = s.echoBusy := rfl
@[simp] theorem State.finish_loadPresent : (s.finish).loadPresent = s.loadPresent := rfl
@[simp] theorem State.finish_loadLen : (s.finish).loadLen = s.loadLen := rfl
@[simp] theorem State.finish_loadBuf : (s.finish).loadBuf = s.loadBuf := rfl
@[simp] theorem State.finish_fault : (s.finish).fault = s.fault := rfl
@[simp] theorem State.finish_refused : (s.finish).refused = s.refused := rfl
@[simp] theorem State.finish_trace : (s.finish).trace = s.trace := rfl
@[simp] theorem State.finish_plan : (s.finish).plan = s.plan := rfl
@[simp] theorem State.finish_draws : (s.finish).draws = s.draws := rfl

/-! ### `State.setLine` -/

@[simp] theorem State.setLine_cfg (k : Line) (l : LineState) : (s.setLine k l).cfg = s.cfg := rfl
@[simp] theorem State.setLine_rom (k : Line) (l : LineState) : (s.setLine k l).rom = s.rom := rfl
@[simp] theorem State.setLine_main (k : Line) (l : LineState) : (s.setLine k l).main = s.main := rfl
@[simp] theorem State.setLine_handlers (k : Line) (l : LineState) : (s.setLine k l).handlers = s.handlers := rfl
@[simp] theorem State.setLine_dl (k : Line) (l : LineState) : (s.setLine k l).dl = s.dl := rfl
@[simp] theorem State.setLine_ien (k : Line) (l : LineState) : (s.setLine k l).ien = s.ien := rfl
@[simp] theorem State.setLine_tmrCfg (k : Line) (l : LineState) : (s.setLine k l).tmrCfg = s.tmrCfg := rfl
@[simp] theorem State.setLine_tCnt (k : Line) (l : LineState) : (s.setLine k l).tCnt = s.tCnt := rfl
@[simp] theorem State.setLine_tRun (k : Line) (l : LineState) : (s.setLine k l).tRun = s.tRun := rfl
@[simp] theorem State.setLine_tf (k : Line) (l : LineState) : (s.setLine k l).tf = s.tf := rfl
@[simp] theorem State.setLine_addr (k : Line) (l : LineState) : (s.setLine k l).addr = s.addr := rfl
@[simp] theorem State.setLine_flBusy (k : Line) (l : LineState) : (s.setLine k l).flBusy = s.flBusy := rfl
@[simp] theorem State.setLine_flOp (k : Line) (l : LineState) : (s.setLine k l).flOp = s.flOp := rfl
@[simp] theorem State.setLine_mem (k : Line) (l : LineState) : (s.setLine k l).mem = s.mem := rfl
@[simp] theorem State.setLine_ledState (k : Line) (l : LineState) : (s.setLine k l).ledState = s.ledState := rfl
@[simp] theorem State.setLine_litRem (k : Line) (l : LineState) : (s.setLine k l).litRem = s.litRem := rfl
@[simp] theorem State.setLine_offRem (k : Line) (l : LineState) : (s.setLine k l).offRem = s.offRem := rfl
@[simp] theorem State.setLine_duty (k : Line) (l : LineState) : (s.setLine k l).duty = s.duty := rfl
@[simp] theorem State.setLine_ledOn (k : Line) (l : LineState) : (s.setLine k l).ledOn = s.ledOn := rfl
@[simp] theorem State.setLine_echoBuf (k : Line) (l : LineState) : (s.setLine k l).echoBuf = s.echoBuf := rfl
@[simp] theorem State.setLine_echoBusy (k : Line) (l : LineState) : (s.setLine k l).echoBusy = s.echoBusy := rfl
@[simp] theorem State.setLine_loadPresent (k : Line) (l : LineState) : (s.setLine k l).loadPresent = s.loadPresent := rfl
@[simp] theorem State.setLine_loadLen (k : Line) (l : LineState) : (s.setLine k l).loadLen = s.loadLen := rfl
@[simp] theorem State.setLine_loadBuf (k : Line) (l : LineState) : (s.setLine k l).loadBuf = s.loadBuf := rfl
@[simp] theorem State.setLine_fault (k : Line) (l : LineState) : (s.setLine k l).fault = s.fault := rfl
@[simp] theorem State.setLine_refused (k : Line) (l : LineState) : (s.setLine k l).refused = s.refused := rfl
@[simp] theorem State.setLine_trace (k : Line) (l : LineState) : (s.setLine k l).trace = s.trace := rfl
@[simp] theorem State.setLine_plan (k : Line) (l : LineState) : (s.setLine k l).plan = s.plan := rfl
@[simp] theorem State.setLine_draws (k : Line) (l : LineState) : (s.setLine k l).draws = s.draws := rfl

/-! ### `State.emit` -/

@[simp] theorem State.emit_cfg (e : Event) : (s.emit e).cfg = s.cfg := rfl
@[simp] theorem State.emit_rom (e : Event) : (s.emit e).rom = s.rom := rfl
@[simp] theorem State.emit_main (e : Event) : (s.emit e).main = s.main := rfl
@[simp] theorem State.emit_handlers (e : Event) : (s.emit e).handlers = s.handlers := rfl
@[simp] theorem State.emit_dl (e : Event) : (s.emit e).dl = s.dl := rfl
@[simp] theorem State.emit_ien (e : Event) : (s.emit e).ien = s.ien := rfl
@[simp] theorem State.emit_tmrCfg (e : Event) : (s.emit e).tmrCfg = s.tmrCfg := rfl
@[simp] theorem State.emit_tCnt (e : Event) : (s.emit e).tCnt = s.tCnt := rfl
@[simp] theorem State.emit_tRun (e : Event) : (s.emit e).tRun = s.tRun := rfl
@[simp] theorem State.emit_tf (e : Event) : (s.emit e).tf = s.tf := rfl
@[simp] theorem State.emit_line0 (e : Event) : (s.emit e).line0 = s.line0 := rfl
@[simp] theorem State.emit_line1 (e : Event) : (s.emit e).line1 = s.line1 := rfl
@[simp] theorem State.emit_addr (e : Event) : (s.emit e).addr = s.addr := rfl
@[simp] theorem State.emit_flBusy (e : Event) : (s.emit e).flBusy = s.flBusy := rfl
@[simp] theorem State.emit_flOp (e : Event) : (s.emit e).flOp = s.flOp := rfl
@[simp] theorem State.emit_mem (e : Event) : (s.emit e).mem = s.mem := rfl
@[simp] theorem State.emit_ledState (e : Event) : (s.emit e).ledState = s.ledState := rfl
@[simp] theorem State.emit_litRem (e : Event) : (s.emit e).litRem = s.litRem := rfl
@[simp] theorem State.emit_offRem (e : Event) : (s.emit e).offRem = s.offRem := rfl
@[simp] theorem State.emit_duty (e : Event) : (s.emit e).duty = s.duty := rfl
@[simp] theorem State.emit_ledOn (e : Event) : (s.emit e).ledOn = s.ledOn := rfl
@[simp] theorem State.emit_echoBuf (e : Event) : (s.emit e).echoBuf = s.echoBuf := rfl
@[simp] theorem State.emit_echoBusy (e : Event) : (s.emit e).echoBusy = s.echoBusy := rfl
@[simp] theorem State.emit_loadPresent (e : Event) : (s.emit e).loadPresent = s.loadPresent := rfl
@[simp] theorem State.emit_loadLen (e : Event) : (s.emit e).loadLen = s.loadLen := rfl
@[simp] theorem State.emit_loadBuf (e : Event) : (s.emit e).loadBuf = s.loadBuf := rfl
@[simp] theorem State.emit_fault (e : Event) : (s.emit e).fault = s.fault := rfl
@[simp] theorem State.emit_refused (e : Event) : (s.emit e).refused = s.refused := rfl
@[simp] theorem State.emit_plan (e : Event) : (s.emit e).plan = s.plan := rfl
@[simp] theorem State.emit_draws (e : Event) : (s.emit e).draws = s.draws := rfl

/-! ### `State.setLed` -/

@[simp] theorem State.setLed_cfg (v : Bool) : (s.setLed v).cfg = s.cfg := rfl
@[simp] theorem State.setLed_rom (v : Bool) : (s.setLed v).rom = s.rom := rfl
@[simp] theorem State.setLed_main (v : Bool) : (s.setLed v).main = s.main := rfl
@[simp] theorem State.setLed_handlers (v : Bool) : (s.setLed v).handlers = s.handlers := rfl
@[simp] theorem State.setLed_dl (v : Bool) : (s.setLed v).dl = s.dl := rfl
@[simp] theorem State.setLed_ien (v : Bool) : (s.setLed v).ien = s.ien := rfl
@[simp] theorem State.setLed_tmrCfg (v : Bool) : (s.setLed v).tmrCfg = s.tmrCfg := rfl
@[simp] theorem State.setLed_tCnt (v : Bool) : (s.setLed v).tCnt = s.tCnt := rfl
@[simp] theorem State.setLed_tRun (v : Bool) : (s.setLed v).tRun = s.tRun := rfl
@[simp] theorem State.setLed_tf (v : Bool) : (s.setLed v).tf = s.tf := rfl
@[simp] theorem State.setLed_line0 (v : Bool) : (s.setLed v).line0 = s.line0 := rfl
@[simp] theorem State.setLed_line1 (v : Bool) : (s.setLed v).line1 = s.line1 := rfl
@[simp] theorem State.setLed_addr (v : Bool) : (s.setLed v).addr = s.addr := rfl
@[simp] theorem State.setLed_flBusy (v : Bool) : (s.setLed v).flBusy = s.flBusy := rfl
@[simp] theorem State.setLed_flOp (v : Bool) : (s.setLed v).flOp = s.flOp := rfl
@[simp] theorem State.setLed_mem (v : Bool) : (s.setLed v).mem = s.mem := rfl
@[simp] theorem State.setLed_ledState (v : Bool) : (s.setLed v).ledState = s.ledState := rfl
@[simp] theorem State.setLed_litRem (v : Bool) : (s.setLed v).litRem = s.litRem := rfl
@[simp] theorem State.setLed_offRem (v : Bool) : (s.setLed v).offRem = s.offRem := rfl
@[simp] theorem State.setLed_duty (v : Bool) : (s.setLed v).duty = s.duty := rfl
@[simp] theorem State.setLed_echoBuf (v : Bool) : (s.setLed v).echoBuf = s.echoBuf := rfl
@[simp] theorem State.setLed_echoBusy (v : Bool) : (s.setLed v).echoBusy = s.echoBusy := rfl
@[simp] theorem State.setLed_loadPresent (v : Bool) : (s.setLed v).loadPresent = s.loadPresent := rfl
@[simp] theorem State.setLed_loadLen (v : Bool) : (s.setLed v).loadLen = s.loadLen := rfl
@[simp] theorem State.setLed_loadBuf (v : Bool) : (s.setLed v).loadBuf = s.loadBuf := rfl
@[simp] theorem State.setLed_fault (v : Bool) : (s.setLed v).fault = s.fault := rfl
@[simp] theorem State.setLed_refused (v : Bool) : (s.setLed v).refused = s.refused := rfl
@[simp] theorem State.setLed_plan (v : Bool) : (s.setLed v).plan = s.plan := rfl
@[simp] theorem State.setLed_draws (v : Bool) : (s.setLed v).draws = s.draws := rfl

/-! ### `State.issue` -/

@[simp] theorem State.issue_cfg (op : FlashOp) : (s.issue op).cfg = s.cfg := rfl
@[simp] theorem State.issue_rom (op : FlashOp) : (s.issue op).rom = s.rom := rfl
@[simp] theorem State.issue_main (op : FlashOp) : (s.issue op).main = s.main := rfl
@[simp] theorem State.issue_handlers (op : FlashOp) : (s.issue op).handlers = s.handlers := rfl
@[simp] theorem State.issue_dl (op : FlashOp) : (s.issue op).dl = s.dl := rfl
@[simp] theorem State.issue_ien (op : FlashOp) : (s.issue op).ien = s.ien := rfl
@[simp] theorem State.issue_tmrCfg (op : FlashOp) : (s.issue op).tmrCfg = s.tmrCfg := rfl
@[simp] theorem State.issue_tCnt (op : FlashOp) : (s.issue op).tCnt = s.tCnt := rfl
@[simp] theorem State.issue_tRun (op : FlashOp) : (s.issue op).tRun = s.tRun := rfl
@[simp] theorem State.issue_tf (op : FlashOp) : (s.issue op).tf = s.tf := rfl
@[simp] theorem State.issue_line0 (op : FlashOp) : (s.issue op).line0 = s.line0 := rfl
@[simp] theorem State.issue_line1 (op : FlashOp) : (s.issue op).line1 = s.line1 := rfl
@[simp] theorem State.issue_addr (op : FlashOp) : (s.issue op).addr = s.addr := rfl
@[simp] theorem State.issue_mem (op : FlashOp) : (s.issue op).mem = s.mem := rfl
@[simp] theorem State.issue_ledState (op : FlashOp) : (s.issue op).ledState = s.ledState := rfl
@[simp] theorem State.issue_litRem (op : FlashOp) : (s.issue op).litRem = s.litRem := rfl
@[simp] theorem State.issue_offRem (op : FlashOp) : (s.issue op).offRem = s.offRem := rfl
@[simp] theorem State.issue_duty (op : FlashOp) : (s.issue op).duty = s.duty := rfl
@[simp] theorem State.issue_ledOn (op : FlashOp) : (s.issue op).ledOn = s.ledOn := rfl
@[simp] theorem State.issue_echoBuf (op : FlashOp) : (s.issue op).echoBuf = s.echoBuf := rfl
@[simp] theorem State.issue_echoBusy (op : FlashOp) : (s.issue op).echoBusy = s.echoBusy := rfl
@[simp] theorem State.issue_loadPresent (op : FlashOp) : (s.issue op).loadPresent = s.loadPresent := rfl
@[simp] theorem State.issue_loadLen (op : FlashOp) : (s.issue op).loadLen = s.loadLen := rfl
@[simp] theorem State.issue_loadBuf (op : FlashOp) : (s.issue op).loadBuf = s.loadBuf := rfl
@[simp] theorem State.issue_fault (op : FlashOp) : (s.issue op).fault = s.fault := rfl
@[simp] theorem State.issue_refused (op : FlashOp) : (s.issue op).refused = s.refused := rfl
@[simp] theorem State.issue_trace (op : FlashOp) : (s.issue op).trace = s.trace := rfl
@[simp] theorem State.issue_plan (op : FlashOp) : (s.issue op).plan = s.plan := rfl
@[simp] theorem State.issue_draws (op : FlashOp) : (s.issue op).draws = s.draws := rfl

/-! ### `State.bumpAddr` -/

@[simp] theorem State.bumpAddr_cfg : (s.bumpAddr).cfg = s.cfg := rfl
@[simp] theorem State.bumpAddr_rom : (s.bumpAddr).rom = s.rom := rfl
@[simp] theorem State.bumpAddr_main : (s.bumpAddr).main = s.main := rfl
@[simp] theorem State.bumpAddr_handlers : (s.bumpAddr).handlers = s.handlers := rfl
@[simp] theorem State.bumpAddr_dl : (s.bumpAddr).dl = s.dl := rfl
@[simp] theorem State.bumpAddr_ien : (s.bumpAddr).ien = s.ien := rfl
@[simp] theorem State.bumpAddr_tmrCfg : (s.bumpAddr).tmrCfg = s.tmrCfg := rfl
@[simp] theorem State.bumpAddr_tCnt : (s.bumpAddr).tCnt = s.tCnt := rfl
@[simp] theorem State.bumpAddr_tRun : (s.bumpAddr).tRun = s.tRun := rfl
@[simp] theorem State.bumpAddr_tf : (s.bumpAddr).tf = s.tf := rfl
@[simp] theorem State.bumpAddr_line0 : (s.bumpAddr).line0 = s.line0 := rfl
@[simp] theorem State.bumpAddr_line1 : (s.bumpAddr).line1 = s.line1 := rfl
@[simp] theorem State.bumpAddr_flBusy : (s.bumpAddr).flBusy = s.flBusy := rfl
@[simp] theorem State.bumpAddr_flOp : (s.bumpAddr).flOp = s.flOp := rfl
@[simp] theorem State.bumpAddr_mem : (s.bumpAddr).mem = s.mem := rfl
@[simp] theorem State.bumpAddr_ledState : (s.bumpAddr).ledState = s.ledState := rfl
@[simp] theorem State.bumpAddr_litRem : (s.bumpAddr).litRem = s.litRem := rfl
@[simp] theorem State.bumpAddr_offRem : (s.bumpAddr).offRem = s.offRem := rfl
@[simp] theorem State.bumpAddr_duty : (s.bumpAddr).duty = s.duty := rfl
@[simp] theorem State.bumpAddr_ledOn : (s.bumpAddr).ledOn = s.ledOn := rfl
@[simp] theorem State.bumpAddr_echoBuf : (s.bumpAddr).echoBuf = s.echoBuf := rfl
@[simp] theorem State.bumpAddr_echoBusy : (s.bumpAddr).echoBusy = s.echoBusy := rfl
@[simp] theorem State.bumpAddr_loadPresent : (s.bumpAddr).loadPresent = s.loadPresent := rfl
@[simp] theorem State.bumpAddr_loadLen : (s.bumpAddr).loadLen = s.loadLen := rfl
@[simp] theorem State.bumpAddr_loadBuf : (s.bumpAddr).loadBuf = s.loadBuf := rfl
@[simp] theorem State.bumpAddr_fault : (s.bumpAddr).fault = s.fault := rfl
@[simp] theorem State.bumpAddr_refused : (s.bumpAddr).refused = s.refused := rfl
@[simp] theorem State.bumpAddr_trace : (s.bumpAddr).trace = s.trace := rfl
@[simp] theorem State.bumpAddr_plan : (s.bumpAddr).plan = s.plan := rfl
@[simp] theorem State.bumpAddr_draws : (s.bumpAddr).draws = s.draws := rfl

/-! ### `State.setGate` -/

@[simp] theorem State.setGate_cfg (v : Bool) : (s.setGate v).cfg = s.cfg := rfl
@[simp] theorem State.setGate_rom (v : Bool) : (s.setGate v).rom = s.rom := rfl
@[simp] theorem State.setGate_main (v : Bool) : (s.setGate v).main = s.main := rfl
@[simp] theorem State.setGate_handlers (v : Bool) : (s.setGate v).handlers = s.handlers := rfl
@[simp] theorem State.setGate_dl (v : Bool) : (s.setGate v).dl = s.dl := rfl
@[simp] theorem State.setGate_tmrCfg (v : Bool) : (s.setGate v).tmrCfg = s.tmrCfg := rfl
@[simp] theorem State.setGate_tCnt (v : Bool) : (s.setGate v).tCnt = s.tCnt := rfl
@[simp] theorem State.setGate_tRun (v : Bool) : (s.setGate v).tRun = s.tRun := rfl
@[simp] theorem State.setGate_tf (v : Bool) : (s.setGate v).tf = s.tf := rfl
@[simp] theorem State.setGate_line0 (v : Bool) : (s.setGate v).line0 = s.line0 := rfl
@[simp] theorem State.setGate_line1 (v : Bool) : (s.setGate v).line1 = s.line1 := rfl
@[simp] theorem State.setGate_addr (v : Bool) : (s.setGate v).addr = s.addr := rfl
@[simp] theorem State.setGate_flBusy (v : Bool) : (s.setGate v).flBusy = s.flBusy := rfl
@[simp] theorem State.setGate_flOp (v : Bool) : (s.setGate v).flOp = s.flOp := rfl
@[simp] theorem State.setGate_mem (v : Bool) : (s.setGate v).mem = s.mem := rfl
@[simp] theorem State.setGate_ledState (v : Bool) : (s.setGate v).ledState = s.ledState := rfl
@[simp] theorem State.setGate_litRem (v : Bool) : (s.setGate v).litRem = s.litRem := rfl
@[simp] theorem State.setGate_offRem (v : Bool) : (s.setGate v).offRem = s.offRem := rfl
@[simp] theorem State.setGate_duty (v : Bool) : (s.setGate v).duty = s.duty := rfl
@[simp] theorem State.setGate_ledOn (v : Bool) : (s.setGate v).ledOn = s.ledOn := rfl
@[simp] theorem State.setGate_echoBuf (v : Bool) : (s.setGate v).echoBuf = s.echoBuf := rfl
@[simp] theorem State.setGate_echoBusy (v : Bool) : (s.setGate v).echoBusy = s.echoBusy := rfl
@[simp] theorem State.setGate_loadPresent (v : Bool) : (s.setGate v).loadPresent = s.loadPresent := rfl
@[simp] theorem State.setGate_loadLen (v : Bool) : (s.setGate v).loadLen = s.loadLen := rfl
@[simp] theorem State.setGate_loadBuf (v : Bool) : (s.setGate v).loadBuf = s.loadBuf := rfl
@[simp] theorem State.setGate_fault (v : Bool) : (s.setGate v).fault = s.fault := rfl
@[simp] theorem State.setGate_refused (v : Bool) : (s.setGate v).refused = s.refused := rfl
@[simp] theorem State.setGate_trace (v : Bool) : (s.setGate v).trace = s.trace := rfl
@[simp] theorem State.setGate_plan (v : Bool) : (s.setGate v).plan = s.plan := rfl
@[simp] theorem State.setGate_draws (v : Bool) : (s.setGate v).draws = s.draws := rfl

/-! ### `State.setEnable` -/

@[simp] theorem State.setEnable_cfg (src : Source) (v : Bool) : (s.setEnable src v).cfg = s.cfg := rfl
@[simp] theorem State.setEnable_rom (src : Source) (v : Bool) : (s.setEnable src v).rom = s.rom := rfl
@[simp] theorem State.setEnable_main (src : Source) (v : Bool) : (s.setEnable src v).main = s.main := rfl
@[simp] theorem State.setEnable_handlers (src : Source) (v : Bool) : (s.setEnable src v).handlers = s.handlers := rfl
@[simp] theorem State.setEnable_dl (src : Source) (v : Bool) : (s.setEnable src v).dl = s.dl := rfl
@[simp] theorem State.setEnable_tmrCfg (src : Source) (v : Bool) : (s.setEnable src v).tmrCfg = s.tmrCfg := rfl
@[simp] theorem State.setEnable_tCnt (src : Source) (v : Bool) : (s.setEnable src v).tCnt = s.tCnt := rfl
@[simp] theorem State.setEnable_tRun (src : Source) (v : Bool) : (s.setEnable src v).tRun = s.tRun := rfl
@[simp] theorem State.setEnable_tf (src : Source) (v : Bool) : (s.setEnable src v).tf = s.tf := rfl
@[simp] theorem State.setEnable_line0 (src : Source) (v : Bool) : (s.setEnable src v).line0 = s.line0 := rfl
@[simp] theorem State.setEnable_line1 (src : Source) (v : Bool) : (s.setEnable src v).line1 = s.line1 := rfl
@[simp] theorem State.setEnable_addr (src : Source) (v : Bool) : (s.setEnable src v).addr = s.addr := rfl
@[simp] theorem State.setEnable_flBusy (src : Source) (v : Bool) : (s.setEnable src v).flBusy = s.flBusy := rfl
@[simp] theorem State.setEnable_flOp (src : Source) (v : Bool) : (s.setEnable src v).flOp = s.flOp := rfl
@[simp] theorem State.setEnable_mem (src : Source) (v : Bool) : (s.setEnable src v).mem = s.mem := rfl
@[simp] theorem State.setEnable_ledState (src : Source) (v : Bool) : (s.setEnable src v).ledState = s.ledState := rfl
@[simp] theorem State.setEnable_litRem (src : Source) (v : Bool) : (s.setEnable src v).litRem = s.litRem := rfl
@[simp] theorem State.setEnable_offRem (src : Source) (v : Bool) : (s.setEnable src v).offRem = s.offRem := rfl
@[simp] theorem State.setEnable_duty (src : Source) (v : Bool) : (s.setEnable src v).duty = s.duty := rfl
@[simp] theorem State.setEnable_ledOn (src : Source) (v : Bool) : (s.setEnable src v).ledOn = s.ledOn := rfl
@[simp] theorem State.setEnable_echoBuf (src : Source) (v : Bool) : (s.setEnable src v).echoBuf = s.echoBuf := rfl
@[simp] theorem State.setEnable_echoBusy (src : Source) (v : Bool) : (s.setEnable src v).echoBusy = s.echoBusy := rfl
@[simp] theorem State.setEnable_loadPresent (src : Source) (v : Bool) : (s.setEnable src v).loadPresent = s.loadPresent := rfl
@[simp] theorem State.setEnable_loadLen (src : Source) (v : Bool) : (s.setEnable src v).loadLen = s.loadLen := rfl
@[simp] theorem State.setEnable_loadBuf (src : Source) (v : Bool) : (s.setEnable src v).loadBuf = s.loadBuf := rfl
@[simp] theorem State.setEnable_fault (src : Source) (v : Bool) : (s.setEnable src v).fault = s.fault := rfl
@[simp] theorem State.setEnable_refused (src : Source) (v : Bool) : (s.setEnable src v).refused = s.refused := rfl
@[simp] theorem State.setEnable_trace (src : Source) (v : Bool) : (s.setEnable src v).trace = s.trace := rfl
@[simp] theorem State.setEnable_plan (src : Source) (v : Bool) : (s.setEnable src v).plan = s.plan := rfl
@[simp] theorem State.setEnable_draws (src : Source) (v : Bool) : (s.setEnable src v).draws = s.draws := rfl

/-! ### `State.popMove` -/

@[simp] theorem State.popMove_cfg : (s.popMove).cfg = s.cfg := rfl
@[simp] theorem State.popMove_rom : (s.popMove).rom = s.rom := rfl
@[simp] theorem State.popMove_main : (s.popMove).main = s.main := rfl
@[simp] theorem State.popMove_handlers : (s.popMove).handlers = s.handlers := rfl
@[simp] theorem State.popMove_dl : (s.popMove).dl = s.dl := rfl
@[simp] theorem State.popMove_ien : (s.popMove).ien = s.ien := rfl
@[simp] theorem State.popMove_tmrCfg : (s.popMove).tmrCfg = s.tmrCfg := rfl
@[simp] theorem State.popMove_tCnt : (s.popMove).tCnt = s.tCnt := rfl
@[simp] theorem State.popMove_tRun : (s.popMove).tRun = s.tRun := rfl
@[simp] theorem State.popMove_tf : (s.popMove).tf = s.tf := rfl
@[simp] theorem State.popMove_line0 : (s.popMove).line0 = s.line0 := rfl
@[simp] theorem State.popMove_line1 : (s.popMove).line1 = s.line1 := rfl
@[simp] theorem State.popMove_addr : (s.popMove).addr = s.addr := rfl
@[simp] theorem State.popMove_flBusy : (s.popMove).flBusy = s.flBusy := rfl
@[simp] theorem State.popMove_flOp : (s.popMove).flOp = s.flOp := rfl
@[simp] theorem State.popMove_mem : (s.popMove).mem = s.mem := rfl
@[simp] theorem State.popMove_ledState : (s.popMove).ledState = s.ledState := rfl
@[simp] theorem State.popMove_litRem : (s.popMove).litRem = s.litRem := rfl
@[simp] theorem State.popMove_offRem : (s.popMove).offRem = s.offRem := rfl
@[simp] theorem State.popMove_duty : (s.popMove).duty = s.duty := rfl
@[simp] theorem State.popMove_ledOn : (s.popMove).ledOn = s.ledOn := rfl
@[simp] theorem State.popMove_echoBuf : (s.popMove).echoBuf = s.echoBuf := rfl
@[simp] theorem State.popMove_echoBusy : (s.popMove).echoBusy = s.echoBusy := rfl
@[simp] theorem State.popMove_loadPresent : (s.popMove).loadPresent = s.loadPresent := rfl
@[simp] theorem State.popMove_loadLen : (s.popMove).loadLen = s.loadLen := rfl
@[simp] theorem State.popMove_loadBuf : (s.popMove).loadBuf = s.loadBuf := rfl
@[simp] theorem State.popMove_fault : (s.popMove).fault = s.fault := rfl
@[simp] theorem State.popMove_refused : (s.popMove).refused = s.refused := rfl
@[simp] theorem State.popMove_trace : (s.popMove).trace = s.trace := rfl

/-! ### The fields the updates write -/

@[simp] theorem State.emit_trace (e : Event) : (s.emit e).trace = s.trace ++ [e] := rfl
@[simp] theorem State.setLed_ledOn (v : Bool) : (s.setLed v).ledOn = v := rfl
@[simp] theorem State.issue_flOp (op : FlashOp) : (s.issue op).flOp = some op := rfl
@[simp] theorem State.issue_flBusy (op : FlashOp) : (s.issue op).flBusy = true := rfl
@[simp] theorem State.bumpAddr_addr : s.bumpAddr.addr = s.addr.map (· + 1) := rfl
@[simp] theorem State.setGate_ien (v : Bool) : (s.setGate v).ien = { s.ien with ea := v } := rfl
@[simp] theorem State.setEnable_ien (src : Source) (v : Bool) :
    (s.setEnable src v).ien = s.ien.setSource src v := rfl
@[simp] theorem State.popMove_plan : s.popMove.plan = s.plan.tail := rfl

/-! ### The accessors after the updates -/

@[simp] theorem State.setCtx_ctx (c : Ctx) : (s.setCtx c).ctx = c := by
  unfold State.setCtx State.ctx; cases s.handlers <;> rfl

@[simp] theorem State.setMicro_ctx (m : Micro) :
    (s.setMicro m).ctx = { s.ctx with micro := some m } := s.setCtx_ctx _

@[simp] theorem State.finish_ctx :
    s.finish.ctx =
      { pc := s.ctx.pc + 1, past := s.ctx.past || s.ctx.pc == 0xFFFF, micro := none } :=
  s.setCtx_ctx _

@[simp] theorem State.setCtx_kind (c : Ctx) : (s.setCtx c).kind = s.kind := by
  unfold State.setCtx State.kind; cases s.handlers <;> rfl

@[simp] theorem State.setCtx_level (c : Ctx) : (s.setCtx c).level = s.level := by
  unfold State.setCtx State.level; cases s.handlers <;> rfl

@[simp] theorem State.setMicro_kind (m : Micro) : (s.setMicro m).kind = s.kind := s.setCtx_kind _
@[simp] theorem State.setMicro_level (m : Micro) : (s.setMicro m).level = s.level := s.setCtx_level _
@[simp] theorem State.finish_kind : s.finish.kind = s.kind := s.setCtx_kind _
@[simp] theorem State.finish_level : s.finish.level = s.level := s.setCtx_level _

/-- The levels of the stack are untouched by what the executing frame does. -/
@[simp] theorem State.setCtx_levels (c : Ctx) :
    (s.setCtx c).handlers.map Handler.level = s.handlers.map Handler.level := by
  unfold State.setCtx; cases s.handlers <;> rfl

@[simp] theorem State.setCtx_tail (c : Ctx) : (s.setCtx c).handlers.tail = s.handlers.tail := by
  unfold State.setCtx; cases s.handlers <;> rfl

@[simp] theorem State.setLine_line_same (k : Line) (l : LineState) : (s.setLine k l).line k = l := by
  cases k <;> rfl

theorem State.setLine_line_other (k j : Line) (l : LineState) (h : j ≠ k) :
    (s.setLine k l).line j = s.line j := by
  cases k <;> cases j <;> first | rfl | exact absurd rfl h

@[simp] theorem State.setCtx_line (c : Ctx) (k : Line) : (s.setCtx c).line k = s.line k := by
  cases k <;> rfl
@[simp] theorem State.setMicro_line (m : Micro) (k : Line) : (s.setMicro m).line k = s.line k := by
  cases k <;> rfl
@[simp] theorem State.finish_line (k : Line) : (s.finish).line k = s.line k := by
  cases k <;> rfl
@[simp] theorem State.setLine_ctx (k : Line) (l : LineState) : (s.setLine k l).ctx = s.ctx := rfl
@[simp] theorem State.setLine_info (k : Line) (l : LineState) : (s.setLine k l).info = s.info := rfl
@[simp] theorem State.setLine_kind (k : Line) (l : LineState) : (s.setLine k l).kind = s.kind := rfl
@[simp] theorem State.setLine_level (k : Line) (l : LineState) : (s.setLine k l).level = s.level := rfl
@[simp] theorem State.emit_line (e : Event) (k : Line) : (s.emit e).line k = s.line k := by
  cases k <;> rfl
@[simp] theorem State.emit_ctx (e : Event) : (s.emit e).ctx = s.ctx := rfl
@[simp] theorem State.emit_info (e : Event) : (s.emit e).info = s.info := rfl
@[simp] theorem State.emit_kind (e : Event) : (s.emit e).kind = s.kind := rfl
@[simp] theorem State.emit_level (e : Event) : (s.emit e).level = s.level := rfl
@[simp] theorem State.setLed_line (v : Bool) (k : Line) : (s.setLed v).line k = s.line k := by
  cases k <;> rfl
@[simp] theorem State.setLed_ctx (v : Bool) : (s.setLed v).ctx = s.ctx := rfl
@[simp] theorem State.setLed_info (v : Bool) : (s.setLed v).info = s.info := rfl
@[simp] theorem State.setLed_kind (v : Bool) : (s.setLed v).kind = s.kind := rfl
@[simp] theorem State.setLed_level (v : Bool) : (s.setLed v).level = s.level := rfl
@[simp] theorem State.issue_line (op : FlashOp) (k : Line) : (s.issue op).line k = s.line k := by
  cases k <;> rfl
@[simp] theorem State.issue_ctx (op : FlashOp) : (s.issue op).ctx = s.ctx := rfl
@[simp] theorem State.issue_info (op : FlashOp) : (s.issue op).info = s.info := rfl
@[simp] theorem State.issue_kind (op : FlashOp) : (s.issue op).kind = s.kind := rfl
@[simp] theorem State.issue_level (op : FlashOp) : (s.issue op).level = s.level := rfl
@[simp] theorem State.bumpAddr_line (k : Line) : (s.bumpAddr).line k = s.line k := by
  cases k <;> rfl
@[simp] theorem State.bumpAddr_ctx : (s.bumpAddr).ctx = s.ctx := rfl
@[simp] theorem State.bumpAddr_info : (s.bumpAddr).info = s.info := rfl
@[simp] theorem State.bumpAddr_kind : (s.bumpAddr).kind = s.kind := rfl
@[simp] theorem State.bumpAddr_level : (s.bumpAddr).level = s.level := rfl
@[simp] theorem State.setGate_line (v : Bool) (k : Line) : (s.setGate v).line k = s.line k := by
  cases k <;> rfl
@[simp] theorem State.setGate_ctx (v : Bool) : (s.setGate v).ctx = s.ctx := rfl
@[simp] theorem State.setGate_info (v : Bool) : (s.setGate v).info = s.info := rfl
@[simp] theorem State.setGate_kind (v : Bool) : (s.setGate v).kind = s.kind := rfl
@[simp] theorem State.setGate_level (v : Bool) : (s.setGate v).level = s.level := rfl
@[simp] theorem State.setEnable_line (src : Source) (v : Bool) (k : Line) : (s.setEnable src v).line k = s.line k := by
  cases k <;> rfl
@[simp] theorem State.setEnable_ctx (src : Source) (v : Bool) : (s.setEnable src v).ctx = s.ctx := rfl
@[simp] theorem State.setEnable_info (src : Source) (v : Bool) : (s.setEnable src v).info = s.info := rfl
@[simp] theorem State.setEnable_kind (src : Source) (v : Bool) : (s.setEnable src v).kind = s.kind := rfl
@[simp] theorem State.setEnable_level (src : Source) (v : Bool) : (s.setEnable src v).level = s.level := rfl
@[simp] theorem State.popMove_line (k : Line) : (s.popMove).line k = s.line k := by
  cases k <;> rfl
@[simp] theorem State.popMove_ctx : (s.popMove).ctx = s.ctx := rfl
@[simp] theorem State.popMove_info : (s.popMove).info = s.info := rfl
@[simp] theorem State.popMove_kind : (s.popMove).kind = s.kind := rfl
@[simp] theorem State.popMove_level : (s.popMove).level = s.level := rfl

end Sys2Proof.Machine
end

