-- ==== Sys2Proof/Laws/Ops.lean ====
section
/-! SUPPORT. One lemma per shared operation: what must hold when it answers a next state, and what
that state is. Proofs about commands cite these and do not unfold the operations. -/

namespace Sys2Proof.Machine

variable {s t : State}

/-! ### Checks and operands -/

theorem flashIdle_next {r : Result} :
    flashIdle s r = .next t ↔ s.flBusy = false ∧ r = .next t := by
  unfold flashIdle; cases s.flBusy <;> simp

theorem withCursor_next {c : Half → Result} :
    withCursor s c = .next t ↔
      ∃ a, s.addr = some a ∧ s.cfg.inRegion a.toNat = true ∧ c a = .next t := by
  unfold withCursor
  cases s.addr with
  | none => simp
  | some a => cases h : s.cfg.inRegion a.toNat <;> simp [h]

theorem withSlotCursor_next {c : Half → Result} :
    withSlotCursor s c = .next t ↔
      ∃ a, s.addr = some a ∧ s.cfg.inRegion a.toNat = true ∧ c a = .next t := by
  unfold withSlotCursor
  cases s.addr with
  | none => simp
  | some a => cases h : s.cfg.inRegion a.toNat <;> simp [h]

theorem withByte_next {b : ByteOp} {c : Byte → Result} :
    withByte b s c = .next t ↔
      ∃ v, (b = .imm v ∨ b = .dl ∧ s.dl = some v) ∧ c v = .next t := by
  unfold withByte
  cases b with
  | imm v => simp
  | dl => cases s.dl <;> simp

theorem withLine_next {k : Line} {r : Result} :
    withLine k s r = .next t ↔ s.cfg.hasLine k = true ∧ r = .next t := by
  unfold withLine; cases s.cfg.hasLine k <;> simp

theorem withSource_next {src : Source} {r : Result} :
    withSource src s r = .next t ↔
      (∀ k, src = .rx k → s.cfg.hasLine k = true) ∧ r = .next t := by
  cases src with
  | tick => simp [withSource]
  | rx k => simp [withSource, withLine_next]

theorem readCursor_next {c : Half → Byte → Result} :
    readCursor s c = .next t ↔
      ∃ a, s.addr = some a ∧ s.cfg.inRegion a.toNat = true ∧ s.flBusy = false ∧
        c a (s.mem.read a.toNat) = .next t := by
  simp [readCursor, withCursor_next, flashIdle_next]

theorem programM1_next {b : ByteOp} {m : Micro} :
    programM1 b m s = .next t ↔
      ∃ v a, (b = .imm v ∨ b = .dl ∧ s.dl = some v) ∧ s.addr = some a ∧
        s.cfg.inRegion a.toNat = true ∧ s.flBusy = false ∧
        t = (s.issue (.program a.toNat v)).setMicro m := by
  simp only [programM1, withByte_next, withCursor_next, flashIdle_next, Host.Outcome.next.injEq]
  constructor
  · rintro ⟨v, hv, a, ha, hr, hb, rfl⟩; exact ⟨v, a, hv, ha, hr, hb, rfl⟩
  · rintro ⟨v, a, hv, ha, hr, hb, rfl⟩; exact ⟨v, hv, a, ha, hr, hb, rfl⟩

theorem writeLine_next {k : Line} {b : Byte} {c : State → Result} :
    writeLine k b s c = .next t ↔
      (s.line k).cfg.isSome = true ∧ (s.line k).txBusy = false ∧
        c (s.setLine k { s.line k with txData := some b, txBusy := true }) = .next t := by
  unfold writeLine
  cases h : (s.line k).cfg <;> cases hb : (s.line k).txBusy <;> simp

theorem withFetch_next {c : Instr → Result} :
    withFetch s c = .next t ↔
      ∃ w i, s.ctx.past = false ∧ s.rom[s.ctx.pc.toNat]? = some w ∧ decode w = .ok i ∧
        c i = .next t := by
  unfold withFetch
  cases hp : s.ctx.past with
  | true => simp
  | false =>
    cases hw : s.rom[s.ctx.pc.toNat]? with
    | none => simp
    | some w => cases hd : decode w <;> simp [hd]

/-! ### Interrupt entry and return -/

theorem enterSource_next {src : Source} (h : enterSource src s = .next t) :
    ∃ hd, t.handlers = hd :: s.handlers ∧ hd.level = Params.prioOf s.cfg src ∧ hd.savedDL = s.dl ∧
      hd.ctx.micro = none ∧ hd.ctx.past = false ∧
      (src = .tick ∧ hd.kind = .tick ∧ hd.ctx.pc = tickVector ∨
        src = .rx s.cfg.echoLine ∧ hd.kind = .rx s.cfg.echoLine ∧ hd.ctx.pc = rxVector) ∧
      t = { s with handlers := hd :: s.handlers, tf := if src = .tick then false else s.tf } := by
  cases src with
  | tick =>
    simp only [enterSource, Host.Outcome.next.injEq] at h
    subst h
    exact ⟨_, rfl, rfl, rfl, rfl, rfl, .inl ⟨rfl, rfl, rfl⟩, rfl⟩
  | rx k =>
    simp only [enterSource] at h
    split at h
    · next hk =>
      subst hk
      simp only [Host.Outcome.next.injEq] at h
      subst h
      exact ⟨_, rfl, rfl, rfl, rfl, rfl, .inr ⟨rfl, rfl, rfl⟩, rfl⟩
    · cases h

theorem leaveHandler_next :
    leaveHandler s = .next t ↔
      ∃ h hs, s.handlers = h :: hs ∧ t = { s with handlers := hs, dl := h.savedDL } := by
  unfold leaveHandler
  cases s.handlers with
  | nil => simp
  | cons h hs => simp [eq_comm]

/-! ### Micro-sequences of the composite commands -/

theorem sendNext_next {k : Line} {p : SendPos} {more : SendPos → State → Result}
    {fin : State → Result} (h : sendNext k p s more fin = .next t) :
    (p = .m2 ∧ (s.line k).ti = false ∧ more .m2 s = .next t) ∨
    (p = .m2 ∧ (s.line k).ti = true ∧ more .m3 s = .next t) ∨
    (p = .m3 ∧ fin (s.setLine k { s.line k with ti := false }) = .next t) := by
  cases p with
  | m2 =>
    simp only [sendNext] at h
    split at h
    · next ht => exact .inr (.inl ⟨rfl, ht, h⟩)
    · next ht => exact .inl ⟨rfl, by simpa using ht, h⟩
  | m3 => exact .inr (.inr ⟨rfl, h⟩)

theorem saveStart_next {c : State → Result} :
    saveStart s c = .next t ↔ s.flBusy = false ∧
      c (({ s with addr := some s.cfg.slotAddr } : State).issue
        (.erase (s.cfg.sectorBase s.cfg.slotAddr.toNat))) = .next t := flashIdle_next

theorem saveByte_next {n i : Nat} {c : Byte → Result} (h : saveByte n i s c = .next t) :
    ∃ v, (i < n ∧ s.echoBuf[i]? = some (some v) ∨ n ≤ i ∧ v = terminator) ∧ c v = .next t := by
  unfold saveByte at h
  split at h
  · next hi =>
    split at h
    · next v hv => exact ⟨v, .inl ⟨hi, hv⟩, h⟩
    · cases h
  · next hi => exact ⟨_, .inr ⟨by omega, rfl⟩, h⟩

theorem saveNext_next {n : Nat} {p : SavePos} {more : SavePos → State → Result}
    {fin : State → Result} (h : saveNext n p s more fin = .next t) :
    (p = .s2 ∧ s.flBusy = true ∧ more .s2 s = .next t) ∨
    (p = .s2 ∧ s.flBusy = false ∧ more (.s3 0) s = .next t) ∨
    (∃ i v a, p = .s3 i ∧ s.flBusy = false ∧ s.addr = some a ∧ s.cfg.inRegion a.toNat = true ∧
      (i < n ∧ s.echoBuf[i]? = some (some v) ∨ n ≤ i ∧ v = terminator) ∧
      more (.s4 i) (s.issue (.program a.toNat v)) = .next t) ∨
    (∃ i, p = .s4 i ∧ s.flBusy = true ∧ more (.s4 i) s = .next t) ∨
    (∃ i, p = .s4 i ∧ s.flBusy = false ∧ i + 1 ≤ n ∧ more (.s3 (i + 1)) s.bumpAddr = .next t) ∨
    (∃ i, p = .s4 i ∧ s.flBusy = false ∧ n < i + 1 ∧ fin s.bumpAddr = .next t) := by
  cases p with
  | s2 =>
    simp only [saveNext] at h
    split at h
    · next hb => exact .inl ⟨rfl, hb, h⟩
    · next hb => exact .inr (.inl ⟨rfl, by simpa using hb, h⟩)
  | s3 i =>
    obtain ⟨v, hv, h⟩ := saveByte_next h
    obtain ⟨hb, h⟩ := flashIdle_next.1 h
    obtain ⟨a, ha, hr, h⟩ := withSlotCursor_next.1 h
    exact .inr (.inr (.inl ⟨i, v, a, rfl, hb, ha, hr, hv, h⟩))
  | s4 i =>
    simp only [saveNext] at h
    split at h
    · next hb => exact .inr (.inr (.inr (.inl ⟨i, rfl, hb, h⟩)))
    · next hb =>
      split at h
      · next hi => exact .inr (.inr (.inr (.inr (.inl ⟨i, rfl, by simpa using hb, hi, h⟩))))
      · next hi =>
        exact .inr (.inr (.inr (.inr (.inr ⟨i, rfl, by simpa using hb, by omega, h⟩))))

theorem loadStart_next {more : LoadPos → State → Result} {fin : State → Result}
    (h : loadStart s more fin = .next t) :
    s.flBusy = false ∧
    ((s.mem.read s.cfg.slotAddr.toNat = sentinel ∧
        fin { s with addr := some (s.cfg.slotAddr + 1), loadPresent := false, loadLen := 0 } =
          .next t) ∨
      (s.mem.read s.cfg.slotAddr.toNat ≠ sentinel ∧
        more (.l2 0 (s.mem.read s.cfg.slotAddr.toNat))
          { s with addr := some (s.cfg.slotAddr + 1), loadPresent := true } = .next t)) := by
  obtain ⟨hb, h⟩ := flashIdle_next.1 h
  refine ⟨hb, ?_⟩
  simp only at h
  split at h
  · next hc => exact .inl ⟨hc, h⟩
  · next hc => exact .inr ⟨hc, h⟩

theorem loadNext_next {p : LoadPos} {more : LoadPos → State → Result} {fin : State → Result}
    (h : loadNext p s more fin = .next t) :
    (∃ k, p = .l2 k terminator ∧ fin { s with loadLen := loadCount k } = .next t) ∨
    (∃ k cur, p = .l2 k cur ∧ cur ≠ terminator ∧ ∃ hk : k.val + 1 < 27,
      more (.l3 ⟨k.val + 1, hk⟩) { s with loadBuf := s.loadBuf.set k.val (some cur) } = .next t) ∨
    (∃ k cur, p = .l2 k cur ∧ cur ≠ terminator ∧ k.val = 26 ∧
      fin { s with loadBuf := s.loadBuf.set k.val (some cur), loadLen := 27 } = .next t) ∨
    (∃ k a, p = .l3 k ∧ s.flBusy = false ∧ s.addr = some a ∧ s.cfg.inRegion a.toNat = true ∧
      more (.l2 k (s.mem.read a.toNat)) { s with addr := some (a + 1) } = .next t) := by
  cases p with
  | l2 k cur =>
    simp only [loadNext] at h
    split at h
    · next hc => exact .inl ⟨k, by rw [hc], h⟩
    · next hc =>
      split at h
      · next hk => exact .inr (.inl ⟨k, cur, rfl, hc, hk, h⟩)
      · next hk => exact .inr (.inr (.inl ⟨k, cur, rfl, hc, by omega, h⟩))
  | l3 k =>
    obtain ⟨hb, h⟩ := flashIdle_next.1 h
    obtain ⟨a, ha, hr, h⟩ := withSlotCursor_next.1 h
    exact .inr (.inr (.inr ⟨k, a, rfl, hb, ha, hr, h⟩))

end Sys2Proof.Machine
end

