-- ==== Sys2Proof/Laws/Step.lean ====
section
/-! SUPPORT. What one step can do: the inversion lemmas of the step function. -/

namespace Sys2Proof.Machine

variable {s t : State}

/-- A step answers a next state only in a running state: it is the mover's step, or it records the
fault or the refusal that the mover raised. -/
theorem step_next (h : step s = .next t) :
    s.fault = none ∧ s.refused = none ∧
    (takeMove s.move s.popMove = .next t ∨
      (∃ f, takeMove s.move s.popMove = .fault f ∧ t = { s.popMove with fault := some f }) ∨
      (∃ r, takeMove s.move s.popMove = .refused r ∧
        t = { s.popMove with refused := some r })) := by
  unfold step stepOf at h
  split at h
  · cases h
  · cases h
  · next hf hr =>
    refine ⟨hf, hr, ?_⟩
    unfold turn recordStop at h
    split at h
    · next hm => cases h; exact .inl hm
    · next f hm => cases h; exact .inr (.inl ⟨f, hm, rfl⟩)
    · next r hm => cases h; exact .inr (.inr ⟨r, hm, rfl⟩)

/-- A running state always has a next state: a fault or refusal is recorded in it. -/
theorem step_running (hf : s.fault = none) (hr : s.refused = none) : ∃ t, step s = .next t := by
  unfold step stepOf turn recordStop
  rw [hf, hr]
  cases takeMove s.move s.popMove <;> exact ⟨_, rfl⟩

/-- The step of a running state whose plan names the mover. -/
theorem step_planned {m : Move} {rest : List Move} (hf : s.fault = none) (hr : s.refused = none)
    (hp : s.plan = m :: rest) :
    step s = recordStop { s with plan := rest } (takeMove m { s with plan := rest }) := by
  unfold step stepOf turn State.move State.popMove
  rw [hf, hr, hp]; rfl

/-- What the step of one mover can be. -/
theorem takeMove_next {m : Move} (h : takeMove m s = .next t) :
    cpuStep s = .next t ∨
    (∃ src, m = .accept src ∧ mayEnter src s = true ∧ enterSource src s = .next t) ∨
    (m = .timer ∧ s.tRun = true ∧ t = timerClock s) ∨
    (∃ k, m = .lineTx k ∧ s.cfg.hasLine k = true ∧ (s.line k).txBusy = true ∧
      t = lineComplete k s) ∨
    (∃ k b received newest, m = .lineRx k b received newest ∧ s.cfg.hasLine k = true ∧
      t = lineDeliver k b received newest s) ∨
    (m = .flash ∧ s.flBusy = true ∧ t = flashComplete s) ∨
    (m = .power ∧ t = powerCycle s) := by
  unfold takeMove at h
  split at h
  · next he =>
    cases m with
    | cpu => exact .inl h
    | accept src => exact .inr (.inl ⟨src, rfl, he, h⟩)
    | timer => cases h; exact .inr (.inr (.inl ⟨rfl, he, rfl⟩))
    | lineTx k =>
      cases h
      simp only [moveEnabled, Bool.and_eq_true] at he
      exact .inr (.inr (.inr (.inl ⟨k, rfl, he.1, he.2, rfl⟩)))
    | lineRx k b r n =>
      cases h; exact .inr (.inr (.inr (.inr (.inl ⟨k, b, r, n, rfl, he, rfl⟩))))
    | flash => cases h; exact .inr (.inr (.inr (.inr (.inr (.inl ⟨rfl, he, rfl⟩)))))
    | power => cases h; exact .inr (.inr (.inr (.inr (.inr (.inr ⟨rfl, rfl⟩)))))
  · exact .inl h

/-- The CPU step is the next micro-step of the command in progress, or the first one of the command
that the word at `pc` decodes to. -/
theorem cpuStep_next (h : cpuStep s = .next t) :
    (∃ m, s.ctx.micro = some m ∧ resume m s = .next t) ∨
    (s.ctx.micro = none ∧ ∃ w i, s.ctx.past = false ∧ s.rom[s.ctx.pc.toNat]? = some w ∧
      decode w = .ok i ∧ exec i s = .next t) := by
  unfold cpuStep at h
  split at h
  · next m hm => exact .inl ⟨m, hm, h⟩
  · next hm => exact .inr ⟨hm, withFetch_next.1 h⟩

end Sys2Proof.Machine
end

