-- ==== Sys2Proof/Laws/Cpu.lean ====
section
/-! SUPPORT. What no micro-step of the CPU touches: the parameters, the ROM, the flash array, the
stop record, the plan and the draw counter; and that it only appends to the trace. -/

namespace Sys2Proof.Machine

/-- What every CPU micro-step keeps. -/
structure CpuKeeps (s t : State) : Prop where
  cfg : t.cfg = s.cfg
  rom : t.rom = s.rom
  mem : t.mem = s.mem
  fault : t.fault = s.fault
  refused : t.refused = s.refused
  plan : t.plan = s.plan
  draws : t.draws = s.draws
  trace : s.trace <+: t.trace

theorem CpuKeeps.refl (s : State) : CpuKeeps s s :=
  ⟨rfl, rfl, rfl, rfl, rfl, rfl, rfl, List.prefix_rfl⟩

theorem CpuKeeps.trans {s t u : State} (h : CpuKeeps s t) (g : CpuKeeps t u) : CpuKeeps s u :=
  ⟨g.cfg.trans h.cfg, g.rom.trans h.rom, g.mem.trans h.mem, g.fault.trans h.fault,
    g.refused.trans h.refused, g.plan.trans h.plan, g.draws.trans h.draws, h.trace.trans g.trace⟩

/-- `CpuKeeps.trans` with the later step named first. -/
theorem CpuKeeps.after {s t u : State} (g : CpuKeeps t u) (h : CpuKeeps s t) : CpuKeeps s u :=
  h.trans g

/-- An update that writes none of these fields keeps them. -/
theorem CpuKeeps.of_eq {s t : State} (h1 : t.cfg = s.cfg) (h2 : t.rom = s.rom) (h3 : t.mem = s.mem)
    (h4 : t.fault = s.fault) (h5 : t.refused = s.refused) (h6 : t.plan = s.plan)
    (h7 : t.draws = s.draws) (h8 : t.trace = s.trace) : CpuKeeps s t :=
  ⟨h1, h2, h3, h4, h5, h6, h7, h8 ▸ List.prefix_rfl⟩

theorem CpuKeeps.setLed (s : State) (v : Bool) : CpuKeeps s (s.setLed v) := by
  refine ⟨rfl, rfl, rfl, rfl, rfl, rfl, rfl, ?_⟩
  show s.trace <+: if s.ledOn = v then s.trace else s.trace ++ [_]
  split
  · exact List.prefix_rfl
  · exact List.prefix_append _ _

theorem CpuKeeps.lightUp (s : State) : CpuKeeps s (lightUp s) := by
  have h : CpuKeeps s (({ s with ledState := .lit } : State).setLed true) :=
    .after (.setLed _ true) (.of_eq rfl rfl rfl rfl rfl rfl rfl rfl)
  unfold Machine.lightUp
  cases s.cfg.ledVariant <;> exact .trans h (.of_eq rfl rfl rfl rfl rfl rfl rfl rfl)

theorem CpuKeeps.ledTick (s : State) : CpuKeeps s (ledTick s) := by
  have hl : CpuKeeps s (({ s with litRem := s.litRem - 1, ledState := .unlit } : State).setLed
      false) :=
    .after (.setLed _ false) (.of_eq rfl rfl rfl rfl rfl rfl rfl rfl)
  unfold Machine.ledTick
  cases s.ledState with
  | lit =>
    simp only
    split
    · exact .trans hl (.of_eq rfl rfl rfl rfl rfl rfl rfl rfl)
    · exact .of_eq rfl rfl rfl rfl rfl rfl rfl rfl
  | unlit =>
    simp only
    split
    · exact .after (.lightUp _) (.of_eq rfl rfl rfl rfl rfl rfl rfl rfl)
    · exact .of_eq rfl rfl rfl rfl rfl rfl rfl rfl

theorem CpuKeeps.ledArm (s : State) : CpuKeeps s (ledArm s) := by
  have h : CpuKeeps s (({ s with ledState := .lit } : State).setLed true) :=
    .after (.setLed _ true) (.of_eq rfl rfl rfl rfl rfl rfl rfl rfl)
  unfold Machine.ledArm
  cases s.cfg.ledVariant <;> exact .trans h (.of_eq rfl rfl rfl rfl rfl rfl rfl rfl)

variable {s t : State}

theorem keeps_sendNext {k : Line} {p : SendPos} {more : SendPos → State → Result}
    {fin : State → Result} (hm : ∀ p u v, more p u = .next v → CpuKeeps u v)
    (hf : ∀ u v, fin u = .next v → CpuKeeps u v) (h : sendNext k p s more fin = .next t) :
    CpuKeeps s t := by
  rcases sendNext_next h with ⟨-, -, h⟩ | ⟨-, -, h⟩ | ⟨-, h⟩
  · exact hm _ _ _ h
  · exact hm _ _ _ h
  · exact .after (hf _ _ h) (.of_eq rfl rfl rfl rfl rfl rfl rfl rfl)

theorem keeps_saveNext {n : Nat} {p : SavePos} {more : SavePos → State → Result}
    {fin : State → Result} (hm : ∀ p u v, more p u = .next v → CpuKeeps u v)
    (hf : ∀ u v, fin u = .next v → CpuKeeps u v) (h : saveNext n p s more fin = .next t) :
    CpuKeeps s t := by
  rcases saveNext_next h with ⟨-, -, h⟩ | ⟨-, -, h⟩ | ⟨_, _, _, -, -, -, -, -, h⟩ | ⟨_, -, -, h⟩ |
    ⟨_, -, -, -, h⟩ | ⟨_, -, -, -, h⟩
  · exact hm _ _ _ h
  · exact hm _ _ _ h
  · exact .after (hm _ _ _ h) (.of_eq rfl rfl rfl rfl rfl rfl rfl rfl)
  · exact hm _ _ _ h
  · exact .after (hm _ _ _ h) (.of_eq rfl rfl rfl rfl rfl rfl rfl rfl)
  · exact .after (hf _ _ h) (.of_eq rfl rfl rfl rfl rfl rfl rfl rfl)

theorem keeps_saveStart {c : State → Result} (hc : ∀ u v, c u = .next v → CpuKeeps u v)
    (h : saveStart s c = .next t) : CpuKeeps s t :=
  .after (hc _ _ (saveStart_next.1 h).2) (.of_eq rfl rfl rfl rfl rfl rfl rfl rfl)

theorem keeps_loadStart {more : LoadPos → State → Result} {fin : State → Result}
    (hm : ∀ p u v, more p u = .next v → CpuKeeps u v)
    (hf : ∀ u v, fin u = .next v → CpuKeeps u v) (h : loadStart s more fin = .next t) :
    CpuKeeps s t := by
  rcases (loadStart_next h).2 with ⟨-, h⟩ | ⟨-, h⟩
  · exact .after (hf _ _ h) (.of_eq rfl rfl rfl rfl rfl rfl rfl rfl)
  · exact .after (hm _ _ _ h) (.of_eq rfl rfl rfl rfl rfl rfl rfl rfl)

theorem keeps_loadNext {p : LoadPos} {more : LoadPos → State → Result} {fin : State → Result}
    (hm : ∀ p u v, more p u = .next v → CpuKeeps u v)
    (hf : ∀ u v, fin u = .next v → CpuKeeps u v) (h : loadNext p s more fin = .next t) :
    CpuKeeps s t := by
  rcases loadNext_next h with ⟨_, -, h⟩ | ⟨_, _, -, -, _, h⟩ | ⟨_, _, -, -, -, h⟩ |
    ⟨_, _, -, -, -, -, h⟩
  · exact .after (hf _ _ h) (.of_eq rfl rfl rfl rfl rfl rfl rfl rfl)
  · exact .after (hm _ _ _ h) (.of_eq rfl rfl rfl rfl rfl rfl rfl rfl)
  · exact .after (hf _ _ h) (.of_eq rfl rfl rfl rfl rfl rfl rfl rfl)
  · exact .after (hm _ _ _ h) (.of_eq rfl rfl rfl rfl rfl rfl rfl rfl)

theorem keeps_writeLine {k : Line} {b : Byte} {c : State → Result}
    (hc : ∀ u v, c u = .next v → CpuKeeps u v) (h : writeLine k b s c = .next t) :
    CpuKeeps s t :=
  .after (hc _ _ (writeLine_next.1 h).2.2) (.of_eq rfl rfl rfl rfl rfl rfl rfl rfl)

theorem keeps_finish {u v : State} (h : Host.Outcome.next u.finish = (.next v : Result)) :
    CpuKeeps u v := by
  cases h; exact .of_eq rfl rfl rfl rfl rfl rfl rfl rfl

theorem keeps_setMicro {m : Micro} {u v : State}
    (h : Host.Outcome.next (u.setMicro m) = (.next v : Result)) : CpuKeeps u v := by
  cases h; exact .of_eq rfl rfl rfl rfl rfl rfl rfl rfl

/-- The first micro-step of every command keeps what no CPU step touches. -/
theorem exec_keeps {i : Instr} (h : exec i s = .next t) : CpuKeeps s t := by
  cases i with
  | nop => exact keeps_finish h
  | idle => cases h; exact .refl _
  | reti =>
    obtain ⟨_, _, -, rfl⟩ := leaveHandler_next.1 h
    exact .of_eq rfl rfl rfl rfl rfl rfl rfl rfl
  | flSetaddr a => exact .after (keeps_finish h) (.of_eq rfl rfl rfl rfl rfl rfl rfl rfl)
  | flErase =>
    obtain ⟨a, -, -, h⟩ := withCursor_next.1 h
    exact .after (keeps_setMicro (flashIdle_next.1 h).2) (.of_eq rfl rfl rfl rfl rfl rfl rfl rfl)
  | flProg b =>
    obtain ⟨_, _, -, -, -, -, rfl⟩ := programM1_next.1 h
    exact .of_eq rfl rfl rfl rfl rfl rfl rfl rfl
  | flRead =>
    simp only [exec, execFlRead] at h
    obtain ⟨a, -, -, -, h⟩ := readCursor_next.1 h
    exact .after (keeps_finish h) (.of_eq rfl rfl rfl rfl rfl rfl rfl rfl)
  | nvWrb b =>
    obtain ⟨_, _, -, -, -, -, rfl⟩ := programM1_next.1 h
    exact .of_eq rfl rfl rfl rfl rfl rfl rfl rfl
  | nvRdb =>
    simp only [exec, execNvRdb] at h
    obtain ⟨a, -, -, -, h⟩ := readCursor_next.1 h
    exact .after (keeps_finish h) (.of_eq rfl rfl rfl rfl rfl rfl rfl rfl)
  | nvSave n => exact keeps_saveStart (fun _ _ => keeps_setMicro) h
  | nvLoad => exact keeps_loadStart (fun _ _ _ => keeps_setMicro) (fun _ _ => keeps_finish) h
  | tmrConfig mode gate src =>
    simp only [exec, execTmrConfig] at h
    split at h
    · cases h
    · exact .after (keeps_finish h) (.of_eq rfl rfl rfl rfl rfl rfl rfl rfl)
  | tmrReload v => exact .after (keeps_finish h) (.of_eq rfl rfl rfl rfl rfl rfl rfl rfl)
  | tmrStart =>
    simp only [exec, execTmrStart] at h
    split at h
    · cases h
    · exact .after (keeps_finish h) (.of_eq rfl rfl rfl rfl rfl rfl rfl rfl)
  | tmrStop => exact .after (keeps_finish h) (.of_eq rfl rfl rfl rfl rfl rfl rfl rfl)
  | serWrite k b =>
    obtain ⟨_, -, h⟩ := withByte_next.1 (withLine_next.1 h).2
    exact keeps_writeLine (fun _ _ => keeps_finish) h
  | serRead k =>
    exact .after (keeps_finish (withLine_next.1 h).2) (.of_eq rfl rfl rfl rfl rfl rfl rfl rfl)
  | serTxdone k =>
    exact .after (keeps_finish (withLine_next.1 h).2) (.of_eq rfl rfl rfl rfl rfl rfl rfl rfl)
  | serClrtx k =>
    exact .after (keeps_finish (withLine_next.1 h).2) (.of_eq rfl rfl rfl rfl rfl rfl rfl rfl)
  | serRxrdy k =>
    exact .after (keeps_finish (withLine_next.1 h).2) (.of_eq rfl rfl rfl rfl rfl rfl rfl rfl)
  | serClrrx k =>
    exact .after (keeps_finish (withLine_next.1 h).2) (.of_eq rfl rfl rfl rfl rfl rfl rfl rfl)
  | serConfig k mode md baud dbl =>
    have h := (withLine_next.1 h).2
    split at h
    · cases h
    · exact .after (keeps_finish h) (.of_eq rfl rfl rfl rfl rfl rfl rfl rfl)
  | serSendb k b =>
    obtain ⟨_, -, h⟩ := withByte_next.1 (withLine_next.1 h).2
    exact keeps_writeLine (fun _ _ => keeps_setMicro) h
  | intEnall => exact .after (keeps_finish h) (.of_eq rfl rfl rfl rfl rfl rfl rfl rfl)
  | intDisall => exact .after (keeps_finish h) (.of_eq rfl rfl rfl rfl rfl rfl rfl rfl)
  | intEnsrc src =>
    exact .after (keeps_finish (withSource_next.1 h).2) (.of_eq rfl rfl rfl rfl rfl rfl rfl rfl)
  | intDissrc src =>
    exact .after (keeps_finish (withSource_next.1 h).2) (.of_eq rfl rfl rfl rfl rfl rfl rfl rfl)
  | ledInit => exact .trans (.ledArm s) (keeps_finish h)
  | ledAdvance => exact .trans (.ledTick s) (keeps_finish h)
  | echoOnbyte b =>
    obtain ⟨v, -, h⟩ := withByte_next.1 h
    split at h
    · exact keeps_finish h
    · split at h
      · cases h
      · split at h
        · cases h
        · exact .after (keeps_setMicro h) (.of_eq rfl rfl rfl rfl rfl rfl rfl rfl)
  | echoReplay =>
    simp only [exec, execEchoReplay] at h
    split at h
    · cases h
    · exact .after (keeps_setMicro h) (.of_eq rfl rfl rfl rfl rfl rfl rfl rfl)

/-- Every later micro-step of a composite command keeps it too. -/
theorem resume_keeps {m : Micro} (h : resume m s = .next t) : CpuKeeps s t := by
  cases m with
  | sendb k p =>
    simp only [resume] at h
    exact keeps_sendNext (fun _ _ _ => keeps_setMicro) (fun _ _ => keeps_finish) h
  | flErase =>
    simp only [resume, holdFlash] at h
    split at h
    · cases h; exact .refl _
    · exact keeps_finish h
  | flProg =>
    simp only [resume, holdFlash] at h
    split at h
    · cases h; exact .refl _
    · exact keeps_finish h
  | nvWrb =>
    simp only [resume, wrbM2] at h
    split at h
    · cases h; exact .refl _
    · exact .after (keeps_finish h) (.of_eq rfl rfl rfl rfl rfl rfl rfl rfl)
  | nvSave n p =>
    simp only [resume] at h
    exact keeps_saveNext (fun _ _ _ => keeps_setMicro) (fun _ _ => keeps_finish) h
  | nvLoad p =>
    simp only [resume] at h
    exact keeps_loadNext (fun _ _ _ => keeps_setMicro) (fun _ _ => keeps_finish) h
  | onbyte start len p =>
    simp only [resume, onbyteNext, echoAt] at h
    cases p with
    | e2 i => exact keeps_writeLine (fun _ _ => keeps_setMicro) h
    | e2Send i q => exact keeps_sendNext (fun _ _ _ => keeps_setMicro) (fun _ _ => keeps_setMicro) h
    | e3 i => exact .after (keeps_setMicro h) (.of_eq rfl rfl rfl rfl rfl rfl rfl rfl)
    | e4 =>
      exact .after (keeps_saveStart (fun _ _ => keeps_setMicro) h) (.of_eq rfl rfl rfl rfl rfl rfl rfl rfl)
    | e4Save q => exact keeps_saveNext (fun _ _ _ => keeps_setMicro) (fun _ _ => keeps_setMicro) h
    | e5 => exact .after (keeps_finish h) (.of_eq rfl rfl rfl rfl rfl rfl rfl rfl)
  | replay p =>
    cases p with
    | p1 => exact keeps_loadStart (fun _ _ _ => keeps_setMicro) (fun _ _ => keeps_setMicro) h
    | p1Load q =>
      simp only [resume, replayNext] at h
      exact keeps_loadNext (fun _ _ _ => keeps_setMicro) (fun _ _ => keeps_setMicro) h
    | p2 =>
      simp only [resume, replayNext, replayAt] at h
      split at h
      · exact keeps_setMicro h
      · exact keeps_setMicro h
    | p3 j =>
      simp only [resume, replayNext, replayByte] at h
      split at h
      · exact keeps_setMicro h
      · split at h
        · split at h
          · exact keeps_writeLine (fun _ _ => keeps_setMicro) h
          · exact keeps_setMicro h
        · cases h
    | p3Send j q =>
      simp only [resume, replayNext] at h
      exact keeps_sendNext (fun _ _ _ => keeps_setMicro) (fun _ _ => keeps_setMicro) h
    | p4 =>
      simp only [resume, replayNext] at h
      exact .after (keeps_finish h) (.of_eq rfl rfl rfl rfl rfl rfl rfl rfl)

/-- The CPU step keeps what no CPU micro-step touches. -/
theorem cpuStep_keeps (h : cpuStep s = .next t) : CpuKeeps s t := by
  rcases cpuStep_next h with ⟨m, -, h⟩ | ⟨-, w, i, -, -, -, h⟩
  · exact resume_keeps h
  · exact exec_keeps h

end Sys2Proof.Machine
end

