-- ==== Sys2Proof/Laws/Frames.lean ====
section
/-! SUPPORT. How a command's end and a micro-step's end meet the frames of Safety.lean: proofs about
commands cite these and do not unfold the stack. -/

namespace Sys2Proof.Machine

variable {s t u : State} {ps : List Part} {m : Micro}

theorem nextCommand_finish (h : u.ctx = s.ctx) : nextCommand s u.finish := by
  simp [nextCommand, h]

theorem goesOnAt_setMicro (h : u.ctx = s.ctx) : goesOnAt m s (u.setMicro m) := by
  simp [goesOnAt, h]

theorem keepsAllBut_refl (ps : List Part) (s : State) : keepsAllBut ps s s := by
  intro p _; cases p <;> simp [Part.same]

/-- Replacing the executing frame's pc and micro touches no part but that frame. -/
theorem keepsAllBut_setCtx {c : Ctx} (hf : Part.frame ∈ ps)
    (h : keepsAllBut ps s u) : keepsAllBut ps s (u.setCtx c) := by
  intro p hp
  have hk := h p hp
  cases p with
  | frame => exact absurd hf hp
  | stack =>
    obtain ⟨h1, h2, h3⟩ := hk
    cases hu : u.handlers <;> cases hv : s.handlers <;>
      simp_all [Part.same, State.setCtx, Handler.identity]
  | line k => cases k <;> exact hk
  | _ => exact hk

theorem keepsAllBut_finish (hf : Part.frame ∈ ps)
    (h : keepsAllBut ps s u) : keepsAllBut ps s u.finish := keepsAllBut_setCtx hf h

theorem keepsAllBut_setMicro (hf : Part.frame ∈ ps)
    (h : keepsAllBut ps s u) : keepsAllBut ps s (u.setMicro m) := keepsAllBut_setCtx hf h

/-- Writing one line's registers touches no other part. -/
theorem keepsAllBut_setLine {k : Line} {l : LineState} (hf : Part.line k ∈ ps)
    (h : keepsAllBut ps s u) : keepsAllBut ps s (u.setLine k l) := by
  intro p hp
  have hk := h p hp
  cases p with
  | line j =>
    cases k <;> cases j <;> first | exact absurd hf hp | exact hk
  | _ => exact hk

end Sys2Proof.Machine
end

