-- ==== Sys2Proof/Laws/Memory.lean ====
section
/-! SUPPORT. The laws of flash memory: what a byte reads after each operation, and that every
operation keeps the canonical form. -/

namespace Sys2Proof.Machine

/-! ### Sorted lists of cells and of addresses -/

/-- Looking an address up, one cell at a time. -/
theorem lookup_cons_ite (a : Nat) (d : Host.Cell) (l : List Host.Cell) :
    (d :: l).lookup a = if a = d.1 then some d.2 else l.lookup a := by
  rw [List.lookup_cons]
  by_cases h : a = d.1
  · simp [h]
  · simp [h, beq_eq_false_iff_ne.2 h]

/-- Every address `cellPut` leaves was there or is the one put. -/
theorem mem_cellPut {a : Nat} {v : Byte} {l : List Host.Cell} {c : Host.Cell}
    (h : c ∈ cellPut a v l) : c = (a, v) ∨ c ∈ l := by
  induction l with
  | nil => simp only [cellPut] at h; split at h <;> simp_all
  | cons d l ih =>
    simp only [cellPut] at h
    split_ifs at h <;> simp only [List.mem_cons] at h ⊢ <;> tauto

theorem cellPut_rising {a : Nat} {v : Byte} {l : List Host.Cell}
    (h : l.Pairwise fun x y => x.1 < y.1) : (cellPut a v l).Pairwise fun x y => x.1 < y.1 := by
  induction l with
  | nil => simp only [cellPut]; split <;> simp
  | cons d l ih =>
    rw [List.pairwise_cons] at h
    simp only [cellPut]
    split_ifs with h1 h2 h3 h4
    · exact List.pairwise_cons.2 h
    · refine List.pairwise_cons.2 ⟨fun y hy => ?_, List.pairwise_cons.2 h⟩
      rcases List.mem_cons.1 hy with rfl | hy
      · exact h1
      · exact Nat.lt_trans h1 (h.1 y hy)
    · exact h.2
    · exact List.pairwise_cons.2 ⟨fun y hy => h3 ▸ h.1 y hy, h.2⟩
    · refine List.pairwise_cons.2 ⟨fun y hy => ?_, ih h.2⟩
      rcases mem_cellPut hy with rfl | hy
      · show d.1 < a; omega
      · exact h.1 y hy

theorem cellPut_listed {a : Nat} {v : Byte} {l : List Host.Cell} (h : ∀ c ∈ l, c.2 ≠ sentinel) :
    ∀ c ∈ cellPut a v l, c.2 ≠ sentinel := by
  induction l with
  | nil => simp only [cellPut]; split <;> simp_all
  | cons d l ih =>
    have hd := h d List.mem_cons_self
    have hl := fun c hc => h c (List.mem_cons_of_mem d hc)
    simp only [cellPut]
    intro c hc
    split_ifs at hc with h1 h2 h3 h4
    · exact h c hc
    · rcases List.mem_cons.1 hc with rfl | hc
      · exact h2
      · exact h c hc
    · exact hl c hc
    · rcases List.mem_cons.1 hc with rfl | hc
      · exact h4
      · exact hl c hc
    · rcases List.mem_cons.1 hc with rfl | hc
      · exact hd
      · exact ih hl c hc

/-- Below the first address of a rising list nothing is found. -/
theorem lookup_below {a : Nat} {l : List Host.Cell} (h : ∀ c ∈ l, a < c.1) :
    l.lookup a = none := by
  induction l with
  | nil => rfl
  | cons d l ih =>
    have := h d List.mem_cons_self
    rw [lookup_cons_ite, if_neg (by omega)]
    exact ih fun c hc => h c (List.mem_cons_of_mem d hc)

theorem lookup_cellPut_same {a : Nat} {v : Byte} {l : List Host.Cell}
    (h : l.Pairwise fun x y => x.1 < y.1) :
    ((cellPut a v l).lookup a).getD sentinel = v := by
  induction l with
  | nil => simp only [cellPut]; split <;> simp_all
  | cons d l ih =>
    rw [List.pairwise_cons] at h
    simp only [cellPut]
    split_ifs with h1 h2 h3 h4
    · rw [lookup_below]
      · exact h2.symm
      · intro c hc
        rcases List.mem_cons.1 hc with rfl | hc
        · exact h1
        · exact Nat.lt_trans h1 (h.1 c hc)
    · simp
    · rw [lookup_below fun c hc => h3 ▸ h.1 c hc]; exact h4.symm
    · simp
    · rw [lookup_cons_ite, if_neg (by omega)]; exact ih h.2

theorem lookup_cellPut_other {a b : Nat} {v : Byte} {l : List Host.Cell} (hb : b ≠ a) :
    (cellPut a v l).lookup b = l.lookup b := by
  induction l with
  | nil => simp only [cellPut]; split <;> simp [lookup_cons_ite, hb]
  | cons d l ih =>
    simp only [cellPut]
    split_ifs with h1 h2 h3 h4
    · rfl
    · rw [lookup_cons_ite, if_neg (show b ≠ a from hb)]
    · rw [lookup_cons_ite, if_neg (by omega)]
    · rw [lookup_cons_ite, if_neg (show b ≠ a from hb), lookup_cons_ite, if_neg (by omega)]
    · rw [lookup_cons_ite, lookup_cons_ite, ih]

theorem mem_staleAdd {a b : Nat} {l : List Nat} : b ∈ staleAdd a l ↔ b = a ∨ b ∈ l := by
  induction l with
  | nil => simp [staleAdd]
  | cons c l ih =>
    simp only [staleAdd]
    split_ifs with h1 h2
    · simp
    · subst h2; simp
    · simp only [List.mem_cons, ih]; tauto

theorem staleAdd_rising {a : Nat} {l : List Nat} (h : l.Pairwise (· < ·)) :
    (staleAdd a l).Pairwise (· < ·) := by
  induction l with
  | nil => simp [staleAdd]
  | cons c l ih =>
    rw [List.pairwise_cons] at h
    simp only [staleAdd]
    split_ifs with h1 h2
    · refine List.pairwise_cons.2 ⟨fun y hy => ?_, List.pairwise_cons.2 h⟩
      rcases List.mem_cons.1 hy with rfl | hy
      · exact h1
      · exact Nat.lt_trans h1 (h.1 y hy)
    · exact List.pairwise_cons.2 h
    · refine List.pairwise_cons.2 ⟨fun y hy => ?_, ih h.2⟩
      rcases mem_staleAdd.1 hy with rfl | hy
      · omega
      · exact h.1 y hy

theorem lookup_filter_keep {p : Nat → Bool} {a : Nat} {l : List Host.Cell} (h : p a = true) :
    (l.filter fun c => p c.1).lookup a = l.lookup a := by
  induction l with
  | nil => rfl
  | cons d l ih =>
    rw [List.filter_cons]
    split
    · rw [lookup_cons_ite, lookup_cons_ite, ih]
    · next hd =>
      rw [ih, lookup_cons_ite, if_neg]
      intro he
      exact hd (he ▸ h)

theorem lookup_filter_drop {p : Nat → Bool} {a : Nat} {l : List Host.Cell} (h : p a = false) :
    (l.filter fun c => p c.1).lookup a = none := by
  induction l with
  | nil => rfl
  | cons d l ih =>
    rw [List.filter_cons]
    split
    · next hd =>
      rw [lookup_cons_ite, if_neg, ih]
      intro he
      rw [he, hd] at h; cases h
    · exact ih

/-! ### Reads after the operations -/

theorem Memory.read_put_same {m : Memory} (h : m.wf) (a : Nat) (v : Byte) :
    (m.put a v).read a = v := lookup_cellPut_same h.1

theorem Memory.read_put_other (m : Memory) {a b : Nat} (v : Byte) (h : b ≠ a) :
    (m.put a v).read b = m.read b := by
  unfold Memory.read Memory.put; rw [lookup_cellPut_other h]

theorem Memory.fresh_put_same (m : Memory) (a : Nat) (v : Byte) : (m.put a v).fresh a = false := by
  simp [Memory.fresh, Memory.put, mem_staleAdd]

theorem Memory.fresh_put_other (m : Memory) {a b : Nat} (v : Byte) (h : b ≠ a) :
    (m.put a v).fresh b = m.fresh b := by
  unfold Memory.fresh Memory.put
  congr 1
  rw [Bool.eq_iff_iff]
  simp [mem_staleAdd, h]

theorem Memory.read_erase_inside (m : Memory) {base n a : Nat} (h1 : base ≤ a) (h2 : a < base + n) :
    (m.erase base n).read a = sentinel := by
  unfold Memory.read Memory.erase
  rw [lookup_filter_drop (p := fun x => !(decide (base ≤ x) && decide (x < base + n)))]
  · rfl
  · simp [h1, h2]

theorem Memory.read_erase_outside (m : Memory) {base n a : Nat} (h : a < base ∨ base + n ≤ a) :
    (m.erase base n).read a = m.read a := by
  unfold Memory.read Memory.erase
  rw [lookup_filter_keep (p := fun x => !(decide (base ≤ x) && decide (x < base + n)))]
  simp; omega

theorem Memory.fresh_erase_inside (m : Memory) {base n a : Nat} (h1 : base ≤ a)
    (h2 : a < base + n) : (m.erase base n).fresh a = true := by
  simp [Memory.fresh, Memory.erase]; omega

theorem Memory.fresh_erase_outside (m : Memory) {base n a : Nat} (h : a < base ∨ base + n ≤ a) :
    (m.erase base n).fresh a = m.fresh a := by
  unfold Memory.fresh Memory.erase
  congr 1
  rw [Bool.eq_iff_iff]
  simp; omega

/-! ### The canonical form -/

theorem Memory.erased_wf : Memory.erased.wf := by
  refine ⟨List.Pairwise.nil, fun c hc => ?_, List.Pairwise.nil⟩
  cases hc

theorem Memory.put_wf {m : Memory} (h : m.wf) (a : Nat) (v : Byte) : (m.put a v).wf :=
  ⟨cellPut_rising h.1, cellPut_listed h.2.1, staleAdd_rising h.2.2⟩

theorem Memory.program_wf {m : Memory} (h : m.wf) (a : Nat) (v d : Byte) : (m.program a v d).wf :=
  Memory.put_wf h a _

theorem Memory.erase_wf {m : Memory} (h : m.wf) (base n : Nat) : (m.erase base n).wf :=
  ⟨h.1.filter _, fun c hc => h.2.1 c (List.mem_filter.1 hc).1, h.2.2.filter _⟩

theorem Memory.scramble_wf {m : Memory} (h : m.wf) (base d n : Nat) : (m.scramble base d n).wf := by
  induction n with
  | zero => exact h
  | succ n ih => exact Memory.put_wf ih _ _

theorem Memory.read_scramble_outside (m : Memory) {base d n a : Nat} (h : a < base ∨ base + n ≤ a) :
    (m.scramble base d n).read a = m.read a := by
  induction n with
  | zero => rfl
  | succ n ih =>
    rw [Memory.scramble, Memory.read_put_other _ _ (by omega), ih (by omega)]

theorem Memory.fresh_scramble_outside (m : Memory) {base d n a : Nat}
    (h : a < base ∨ base + n ≤ a) : (m.scramble base d n).fresh a = m.fresh a := by
  induction n with
  | zero => rfl
  | succ n ih =>
    rw [Memory.scramble, Memory.fresh_put_other _ _ (by omega), ih (by omega)]

theorem Memory.fresh_scramble_inside (m : Memory) {base d n a : Nat} (h1 : base ≤ a)
    (h2 : a < base + n) : (m.scramble base d n).fresh a = false := by
  induction n with
  | zero => omega
  | succ n ih =>
    rw [Memory.scramble]
    rcases Nat.eq_or_lt_of_le (Nat.lt_succ_iff.1 (by omega : a < base + n + 1)) with h | h
    · rw [h]; exact Memory.fresh_put_same _ _ _
    · rw [Memory.fresh_put_other _ _ (by omega)]; exact ih h

/-- A byte of the scrambled range holds the draw of its place. -/
theorem Memory.read_scramble_inside {m : Memory} (h : m.wf) {base d n i : Nat} (hi : i < n) :
    (m.scramble base d n).read (base + i) = Config.freeByte (d + i) := by
  induction n with
  | zero => omega
  | succ n ih =>
    rw [Memory.scramble]
    rcases Nat.eq_or_lt_of_le (Nat.lt_succ_iff.1 hi) with h1 | h1
    · rw [h1]; exact Memory.read_put_same (Memory.scramble_wf h _ _ _) _ _
    · rw [Memory.read_put_other _ _ (by omega)]; exact ih h1

end Sys2Proof.Machine
end

