-- ==== Sys2Proof/Laws/PerInstr.lean ====
section
/-! SUPPORT. The statement made per command, the family TableRow: the encoder writes, for every operand
value, a word of the command's own row of spec/opcode_table.json (its `match` under its `mask`). -/

namespace Sys2Proof.Laws.TableRow

/-- The row's `mask` and `match` in spec/opcode_table.json. -/
def row : Instr → CmdWord × CmdWord
  | .nop => (0xFFFFFF, 0x000000)
  | .idle => (0xFFFFFF, 0x010000)
  | .reti => (0xFFFFFF, 0x020000)
  | .flSetaddr _ => (0xFF0000, 0x110000)
  | .flErase => (0xFFFFFF, 0x120000)
  | .flProg _ => (0xFFFE00, 0x130000)
  | .flRead => (0xFFFFFF, 0x140000)
  | .nvWrb _ => (0xFFFE00, 0x230000)
  | .nvRdb => (0xFFFFFF, 0x240000)
  | .nvSave _ => (0xFFFFE0, 0x250000)
  | .nvLoad => (0xFFFFFF, 0x260000)
  | .tmrConfig _ _ _ => (0xFFFFF0, 0x310000)
  | .tmrReload _ => (0xFF0000, 0x320000)
  | .tmrStart => (0xFFFFFF, 0x330000)
  | .tmrStop => (0xFFFFFF, 0x340000)
  | .serWrite _ _ => (0xEFFE00, 0x410000)
  | .serRead _ => (0xEFFFFF, 0x420000)
  | .serTxdone _ => (0xEFFFFF, 0x430000)
  | .serClrtx _ => (0xEFFFFF, 0x440000)
  | .serRxrdy _ => (0xEFFFFF, 0x450000)
  | .serClrrx _ => (0xEFFFFF, 0x460000)
  | .serConfig _ _ _ _ _ => (0xEFFFC0, 0x470000)
  | .serSendb _ _ => (0xEFFE00, 0x480000)
  | .intEnall => (0xFFFFFF, 0x610000)
  | .intDisall => (0xFFFFFF, 0x620000)
  | .intEnsrc _ => (0xFFFFFC, 0x630000)
  | .intDissrc _ => (0xFFFFFC, 0x640000)
  | .ledInit => (0xFFFFFF, 0x710000)
  | .ledAdvance => (0xFFFFFF, 0x720000)
  | .echoOnbyte _ => (0xFFFE00, 0x810000)
  | .echoReplay => (0xFFFFFF, 0x820000)

/-- The encoded word matches the row. -/
def Statement (i : Instr) : Prop := encode i &&& (row i).1 = (row i).2

/-- A word under a mask that clears the whole operand. -/
theorem wordOf_and_a16 (u o : BitVec 4) (x : Half) :
    wordOf u o x &&& 0xFF0000 = wordOf u o 0 := by
  apply BitVec.eq_of_getLsbD_eq
  intro i hi
  unfold wordOf
  simp only [BitVec.getLsbD_and, BitVec.getLsbD_append]
  interval_cases i <;> simp

theorem nop : Statement (.nop) := by unfold Statement; decide

theorem idle : Statement (.idle) := by unfold Statement; decide

theorem reti : Statement (.reti) := by unfold Statement; decide

theorem flSetaddr (a : Half) : Statement (.flSetaddr a) := (wordOf_and_a16 _ _ _).trans rfl

theorem flErase : Statement (.flErase) := by unfold Statement; decide

theorem flProg (b : ByteOp) : Statement (.flProg b) := by
  cases b with
  | dl => unfold Statement; decide
  | imm v => (unfold Statement; revert v; decide)

theorem flRead : Statement (.flRead) := by unfold Statement; decide

theorem nvWrb (b : ByteOp) : Statement (.nvWrb b) := by
  cases b with
  | dl => unfold Statement; decide
  | imm v => (unfold Statement; revert v; decide)

theorem nvRdb : Statement (.nvRdb) := by unfold Statement; decide

theorem nvSave (n : BitVec 5) : Statement (.nvSave n) := by
  (unfold Statement; revert n; decide)

theorem nvLoad : Statement (.nvLoad) := by unfold Statement; decide

theorem tmrConfig (mode : BitVec 2) (gate : Bool) (src : Bool) : Statement (.tmrConfig mode gate src) := by
  (unfold Statement; revert mode gate src; decide)

theorem tmrReload (v : Half) : Statement (.tmrReload v) := (wordOf_and_a16 _ _ _).trans rfl

theorem tmrStart : Statement (.tmrStart) := by unfold Statement; decide

theorem tmrStop : Statement (.tmrStop) := by unfold Statement; decide

theorem serWrite (k : Line) (b : ByteOp) : Statement (.serWrite k b) := by
  cases k <;> cases b with
  | dl => unfold Statement; decide
  | imm v => (unfold Statement; revert v; decide)

theorem serRead (k : Line) : Statement (.serRead k) := by cases k <;> (unfold Statement; decide)

theorem serTxdone (k : Line) : Statement (.serTxdone k) := by cases k <;> (unfold Statement; decide)

theorem serClrtx (k : Line) : Statement (.serClrtx k) := by cases k <;> (unfold Statement; decide)

theorem serRxrdy (k : Line) : Statement (.serRxrdy k) := by cases k <;> (unfold Statement; decide)

theorem serClrrx (k : Line) : Statement (.serClrrx k) := by cases k <;> (unfold Statement; decide)

theorem serConfig (k : Line) (mode : BitVec 2) (md : Bool) (baud : BitVec 2) (dbl : Bool) : Statement (.serConfig k mode md baud dbl) := by
  cases k <;> ((unfold Statement; revert mode md baud dbl; decide))

theorem serSendb (k : Line) (b : ByteOp) : Statement (.serSendb k b) := by
  cases k <;> cases b with
  | dl => unfold Statement; decide
  | imm v => (unfold Statement; revert v; decide)

theorem intEnall : Statement (.intEnall) := by unfold Statement; decide

theorem intDisall : Statement (.intDisall) := by unfold Statement; decide

theorem intEnsrc (src : Source) : Statement (.intEnsrc src) := by
  cases src with
  | tick => unfold Statement; decide
  | rx k => cases k <;> (unfold Statement; decide)

theorem intDissrc (src : Source) : Statement (.intDissrc src) := by
  cases src with
  | tick => unfold Statement; decide
  | rx k => cases k <;> (unfold Statement; decide)

theorem ledInit : Statement (.ledInit) := by unfold Statement; decide

theorem ledAdvance : Statement (.ledAdvance) := by unfold Statement; decide

theorem echoOnbyte (b : ByteOp) : Statement (.echoOnbyte b) := by
  cases b with
  | dl => unfold Statement; decide
  | imm v => (unfold Statement; revert v; decide)

theorem echoReplay : Statement (.echoReplay) := by unfold Statement; decide

end Sys2Proof.Laws.TableRow
end

