-- ==== Sys2Proof/Laws/Runs.lean ====
section
/-! SUPPORT. What weak fairness gives: in a run a duty is served or stops being one, and what serving it
does. -/

namespace Sys2Proof.Machine

variable {moves : Nat → Move} {states : Nat → State}

/-- From every state on, a duty of a weakly fair run is taken, or a state comes that does not
enable it. -/
theorem weaklyFair_served (h : weaklyFair moves states) (d : Move) (n : Nat) :
    ∃ k, n ≤ k ∧ (takes d (moves k) (states k) ∨ duty d (states k) = false) := by
  by_cases hd : ∀ k, n ≤ k → duty d (states k) = true
  · obtain ⟨k, hk, ht⟩ := h d n hd
    exact ⟨k, hk, .inl ht⟩
  · push Not at hd
    obtain ⟨k, hk, hf⟩ := hd
    exact ⟨k, hk, .inr (by simpa using hf)⟩

/-- A step of a run in a running state: what the step of the agent that moves leads to, or the stop that
it raises. -/
theorem isRun_step (h : isRun moves states) {n : Nat} (hr : (states n).running = true) :
    recordStop { states n with plan := [] } (takeMove (moves n) { states n with plan := [] }) =
      .next (states (n + 1)) := by
  have hr' : (states n).fault = none ∧ (states n).refused = none := by
    simpa [State.running] using hr
  have hs := (h n).1 hr
  unfold moveStep at hs
  rwa [step_planned (s := { states n with plan := [moves n] }) (m := moves n) (rest := []) hr'.1 hr'.2
    rfl] at hs

/-- FlashEngine's duty: in a weakly fair run an operation in flight comes to an end, unless the machine
stops. -/
theorem fair_flash_ends (h : isRun moves states) (hf : weaklyFair moves states) (n : Nat) :
    ∃ k, n ≤ k ∧ ((states k).flBusy = false ∨ (states k).running = false) := by
  obtain ⟨k, hk, ht | hd⟩ := weaklyFair_served hf .flash n
  · cases hr : (states k).running with
    | false => exact ⟨k, hk, .inr hr⟩
    | true =>
      refine ⟨k + 1, by omega, .inl ?_⟩
      have hm : mover (moves k) (states k) = .flash := by
        rcases ht with ht | ⟨ht, -⟩
        · exact ht
        · cases ht
      unfold mover at hm
      split at hm
      · next he =>
        have hs := isRun_step h hr
        rw [hm] at hs he
        have he' : moveEnabled .flash { states k with plan := [] } = true := he
        simp only [takeMove, he', if_true, recordStop, Host.Outcome.next.injEq] at hs
        rw [← hs]
        unfold flashComplete
        split <;> rfl
      · cases hm
  · refine ⟨k, hk, ?_⟩
    cases hr : (states k).running with
    | false => exact .inr rfl
    | true => exact .inl (by simpa [duty, hr] using hd)

/-- TimerClock's duty: in a weakly fair run an event occurs while the timer runs (R219), unless the
machine stops. -/
theorem fair_timer_event (hf : weaklyFair moves states) (n : Nat) :
    ∃ k, n ≤ k ∧ (mover (moves k) (states k) = .timer ∨ (states k).tRun = false ∨
      (states k).running = false) := by
  obtain ⟨k, hk, ht | hd⟩ := weaklyFair_served hf .timer n
  · rcases ht with ht | ⟨ht, -⟩
    · exact ⟨k, hk, .inl ht⟩
    · cases ht
  · refine ⟨k, hk, .inr ?_⟩
    cases hr : (states k).running with
    | false => exact .inr rfl
    | true => exact .inl (by simpa [duty, hr] using hd)

/-- A connected line's duty: in a weakly fair run its byte in flight is sent (R194), unless the machine
stops. -/
theorem fair_line_sends (hf : weaklyFair moves states) (l : Line)
    (hl : ∀ k, (states k).cfg.hasLine l = true ∧ (states k).cfg.connected l = true) (n : Nat) :
    ∃ k, n ≤ k ∧ (mover (moves k) (states k) = .lineTx l ∨ ((states k).line l).txBusy = false ∨
      (states k).running = false) := by
  obtain ⟨k, hk, ht | hd⟩ := weaklyFair_served hf (.lineTx l) n
  · rcases ht with ht | ⟨ht, -⟩
    · exact ⟨k, hk, .inl ht⟩
    · cases ht
  · refine ⟨k, hk, .inr ?_⟩
    cases hr : (states k).running with
    | false => exact .inr rfl
    | true => exact .inl (by simpa [duty, hr, hl k] using hd)

end Sys2Proof.Machine
end

