-- ==== Sys2Proof/Tests/Slice0.lean ====
section
/-! SUPPORT. The model's own tests: the WellFormed smoke test, command words of the spec, single steps
of 95_test_vectors.md, and for every obligation with hypotheses a state that meets them. Expected
values come from spec/, each named in its docstring. -/

namespace Sys2Proof.Tests

open Sys2Proof.Machine

/-! ### Helpers -/

/-- EX of 95_test_vectors.md with the one word `w` in ROM, about to be executed by main. -/
def atCommand (w : CmdWord) : State :=
  { State.launch exampleParams [w] Memory.erased with plan := [.cpu] }

/-- Line 0 configured, nothing in flight. -/
def lineReady : LineState := { lineReset with cfg := some { mode := 1, md := false, baud := 0, dbl := false } }

/-- EX with line 0 configured, about to execute `w`. -/
def atReady (w : CmdWord) : State := { atCommand w with line0 := lineReady }

/-- EX with two lines. -/
def twoLines : Params := { exampleParams with nLines := .two }

/-- Flash that holds these bytes from address 0, all programmed. -/
def holding (bs : List Byte) : Memory :=
  bs.zipIdx.foldl (fun m p => m.put p.2 p.1) Memory.erased

/-- An RX handler frame about to execute the word at `pc`. -/
def rxFrame (pc : Half) : Handler :=
  { kind := .rx .l0, level := 0, ctx := { pc := pc, past := false, micro := none }, savedDL := some 0x42 }

/-- The result is a next state with this property. -/
def nextWith (r : Result) (p : State → Bool) : Bool :=
  match r with
  | .next t => p t
  | .fault _ => false
  | .refused _ => false

/-- The result is this fault. -/
def isFault (r : Result) (f : Fault) : Bool :=
  match r with
  | .next _ => false
  | .fault g => g == f
  | .refused _ => false

/-- The result is this refusal. -/
def isRefusal (r : Result) (f : Refusal) : Bool :=
  match r with
  | .next _ => false
  | .fault _ => false
  | .refused g => g == f

/-- The state a result leads to, or `s`. -/
def nextOr (s : State) (r : Result) : State :=
  match r with
  | .next t => t
  | .fault _ => s
  | .refused _ => s

/-- The state that the moves `ms` lead to from `s`. -/
def endOf (ms : List Move) (s : State) : State :=
  nextOr s (Host.Core.run Sys2Proof.core ms.length { s with plan := ms })

/-- What main's frame records in a stop at ROM address 0. -/
def main0 : FrameInfo := { kind := .main, pc := 0 }

/-! ### WellFormed and decoding (30_encoding.md) -/

/-- R113, R117 (e): `n = 26` is the longest legal length. -/
theorem test_wellFormed_accepts_26 : (Instr.nvSave 26).wellFormed = true := by decide

/-- R113, R117 (e): the one check refuses `n = 27`, and no word decodes to it. -/
theorem test_wellFormed_refuses_27 :
    (Instr.nvSave 27).wellFormed = false ∧ decode 0x25001B = .error .lengthTooLong := by decide

/-- R112: words of units `CTL` and `FL` written out from the table. -/
theorem test_decode_ctl_fl :
    decode (0b0000#4 ++ 0b0000#4 ++ 0#16) = .ok .nop ∧
    decode (0b0000#4 ++ 0b0001#4 ++ 0#16) = .ok .idle ∧
    decode (0b0000#4 ++ 0b0010#4 ++ 0#16) = .ok .reti ∧
    decode (0b0001#4 ++ 0b0001#4 ++ 0b0000000100000000#16) = .ok (.flSetaddr 0x0100) ∧
    decode (0b0001#4 ++ 0b0010#4 ++ 0#16) = .ok .flErase ∧
    decode (0b0001#4 ++ 0b0011#4 ++ 0b0000000011111111#16) = .ok (.flProg (.imm 0xFF)) ∧
    decode (0b0001#4 ++ 0b0011#4 ++ 0b0000000100000000#16) = .ok (.flProg .dl) ∧
    decode (0b0001#4 ++ 0b0100#4 ++ 0#16) = .ok .flRead := by decide

/-- R112: words of units `NV` and `TMR`. -/
theorem test_decode_nv_tmr :
    decode (0b0010#4 ++ 0b0011#4 ++ 0b0000000001000001#16) = .ok (.nvWrb (.imm 0x41)) ∧
    decode (0b0010#4 ++ 0b0100#4 ++ 0#16) = .ok .nvRdb ∧
    decode (0b0010#4 ++ 0b0101#4 ++ 0b0000000000000101#16) = .ok (.nvSave 5) ∧
    decode (0b0010#4 ++ 0b0110#4 ++ 0#16) = .ok .nvLoad ∧
    decode (0b0011#4 ++ 0b0001#4 ++ 0b0000000000001010#16) = .ok (.tmrConfig 2 false true) ∧
    decode (0b0011#4 ++ 0b0010#4 ++ 0b0000001111101000#16) = .ok (.tmrReload 1000) ∧
    decode (0b0011#4 ++ 0b0011#4 ++ 0#16) = .ok .tmrStart ∧
    decode (0b0011#4 ++ 0b0100#4 ++ 0#16) = .ok .tmrStop := by decide

/-- R112, R115: words of both `SER` units. -/
theorem test_decode_ser :
    decode (0b0100#4 ++ 0b0001#4 ++ 0b0000000001100001#16) = .ok (.serWrite .l0 (.imm 0x61)) ∧
    decode (0b0101#4 ++ 0b0010#4 ++ 0#16) = .ok (.serRead .l1) ∧
    decode (0b0100#4 ++ 0b0011#4 ++ 0#16) = .ok (.serTxdone .l0) ∧
    decode (0b0101#4 ++ 0b0100#4 ++ 0#16) = .ok (.serClrtx .l1) ∧
    decode (0b0100#4 ++ 0b0101#4 ++ 0#16) = .ok (.serRxrdy .l0) ∧
    decode (0b0101#4 ++ 0b0110#4 ++ 0#16) = .ok (.serClrrx .l1) ∧
    decode (0b0100#4 ++ 0b0111#4 ++ 0b0000000000110001#16) = .ok (.serConfig .l0 1 false 2 true) ∧
    decode (0b0101#4 ++ 0b1000#4 ++ 0b0000000100000000#16) = .ok (.serSendb .l1 .dl) := by decide

/-- R112: words of units `INT`, `LED` and `ECHO`. -/
theorem test_decode_int_led_echo :
    decode (0b0110#4 ++ 0b0001#4 ++ 0#16) = .ok .intEnall ∧
    decode (0b0110#4 ++ 0b0010#4 ++ 0#16) = .ok .intDisall ∧
    decode (0b0110#4 ++ 0b0011#4 ++ 0b0000000000000010#16) = .ok (.intEnsrc (.rx .l1)) ∧
    decode (0b0110#4 ++ 0b0100#4 ++ 0#16) = .ok (.intDissrc .tick) ∧
    decode (0b0111#4 ++ 0b0001#4 ++ 0#16) = .ok .ledInit ∧
    decode (0b0111#4 ++ 0b0010#4 ++ 0#16) = .ok .ledAdvance ∧
    decode (0b1000#4 ++ 0b0001#4 ++ 0b0000000100000000#16) = .ok (.echoOnbyte .dl) ∧
    decode (0b1000#4 ++ 0b0010#4 ++ 0#16) = .ok .echoReplay := by decide

/-- R117 and 95_test_vectors.md, decode table: one ILLEGAL word for each clause. -/
theorem test_decode_illegal :
    decode 0x900000 = .error .reservedUnit ∧ decode 0x030000 = .error .unallocated ∧
    decode 0x120001 = .error .reservedBits ∧ decode 0x130101 = .error .latchWithImmediate ∧
    decode 0x130200 = .error .reservedBits ∧ decode 0x250020 = .error .reservedBits ∧
    decode 0x630003 = .error .noSuchSource ∧ decode 0x310010 = .error .reservedBits ∧
    decode 0x470040 = .error .reservedBits ∧ decode 0x640004 = .error .reservedBits := by decide

/-! ### Single steps (95_test_vectors.md) -/

/-- L2-CTL-1: `CTL.RETI` in main. -/
theorem test_reti_in_main : isFault (exec .reti (atCommand 0x020000)) (.retiNoHandler main0) = true := by
  decide

/-- L2-CTL-9: the saved `DL` comes back. -/
theorem test_reti_restores_dl :
    nextWith (exec .reti { atCommand 0 with handlers := [rxFrame 0x25], dl := some 0x65 })
      (fun t => t.dl == some 0x42 && t.handlers == [] && t.main.pc == 0) = true := by decide

/-- R283: `CTL.IDLE` does not advance pc; R282: `CTL.NOP` does. -/
theorem test_idle_and_nop :
    nextWith (exec .idle (atCommand 0x010000)) (fun t => t.ctx.pc == 0) = true ∧
    nextWith (exec .nop (atCommand 0x000000)) (fun t => t.ctx.pc == 1) = true := by decide

/-- R144: any u16 is accepted, also outside the region. -/
theorem test_setaddr :
    nextWith (exec (.flSetaddr 0xFFFF) (atCommand 0x11FFFF)) (fun t => t.addr == some 0xFFFF) = true := by
  decide

/-- L2-FL-5: with `ADDR = 0x03FF` the second sector is erased. -/
theorem test_erase_second_sector :
    nextWith (exec .flErase { atCommand 0x120000 with addr := some 0x3FF })
      (fun t => t.flOp == some (.erase 0x200) && t.flBusy && t.ctx.pc == 0) = true := by decide

/-- L2-FL-6: just outside the region. -/
theorem test_flash_addr :
    isFault (exec .flRead { atCommand 0x140000 with addr := some 0x400 }) (.flashAddr main0 0x400) = true ∧
    isFault (exec .nvRdb { atCommand 0x240000 with addr := some 0x400 }) (.flashAddr main0 0x400) = true := by
  decide

/-- L2-FL-7: `DL_UNDEF` is checked before `CURSOR_UNDEF`. -/
theorem test_check_order :
    isFault (exec .flRead (atCommand 0x140000)) (.cursorUndef main0) = true ∧
    isFault (exec (.flProg .dl) (atCommand 0x130100)) (.dlUndef main0) = true := by decide

/-- L2-FL-1: the completion of `FL.PROG #0x5A` on a fresh byte. -/
theorem test_program_fresh :
    (flashComplete { atCommand 0 with flOp := some (.program 0x10 0x5A), flBusy := true }).mem =
      { cells := [(0x10, 0x5A)], stale := [0x10] } := by decide

/-- L2-FL-3: 0xFF programmed into a fresh byte reads 0xFF and is no longer fresh. -/
theorem test_program_sentinel :
    (flashComplete { atCommand 0 with flOp := some (.program 0x10 0xFF), flBusy := true }).mem =
      { cells := [], stale := [0x10] } := by decide

/-- L2-FL-11: `NV.RDB` reads and advances. -/
theorem test_rdb :
    nextWith (exec .nvRdb { atCommand 0x240000 with mem := holding [0x61, 0x62, 0x00], addr := some 1 })
      (fun t => t.dl == some 0x62 && t.addr == some 2) = true := by decide

/-- L2-FL-10: `NV.WRB` at the end of the region leaves the cursor at 0x0400. -/
theorem test_wrb_advances :
    nextWith (resume .nvWrb { atCommand 0x230001 with addr := some 0x3FF })
      (fun t => t.addr == some 0x400 && t.ctx.pc == 1) = true := by decide

/-- L2-FL-13: S3 at an undef entry. -/
theorem test_save_undef :
    isFault (resume (.nvSave 2 (.s3 1)) { atCommand 0x250002 with addr := some 1 }) (.bufUndef main0 1) = true := by
  decide

/-- R150: S1 positions the cursor at the slot and issues the erase of its sector. -/
theorem test_save_start :
    nextWith (exec (.nvSave 5) (atCommand 0x250005))
      (fun t => t.addr == some 0 && t.flOp == some (.erase 0)) = true := by decide

/-- L1-4: on a freshly erased store, absent. -/
theorem test_load_absent :
    nextWith (exec .nvLoad (atCommand 0x260000))
      (fun t => !t.loadPresent && t.loadLen == 0 && t.addr == some 1 && t.ctx.pc == 1) = true := by decide

/-- L2-FL-14: the 27th byte ends the load. -/
theorem test_load_cap :
    nextWith (resume (.nvLoad (.l2 26 0x41)) (atCommand 0x260000))
      (fun t => t.loadLen == 27 && t.ctx.pc == 1) = true := by decide

/-- L2-TMR-1 and L2-TMR-2: expiry, and the wrap from 0 which is none. -/
theorem test_timer_events :
    (timerClock { atCommand 0 with tCnt := 1 }).tf = true ∧
    (timerClock { atCommand 0 with tCnt := 0 }).tf = false ∧
    (timerClock { atCommand 0 with tCnt := 0 }).tCnt = 0xFFFF := by decide

/-- L2-TMR-5 and L2-TMR-6. -/
theorem test_timer_stops :
    isFault (exec .tmrStart (atCommand 0x330000)) (.timerUnconfig main0) = true ∧
    isRefusal (exec (.tmrConfig 0 false false) (atCommand 0x310000)) (.configNotModelled main0) = true := by
  decide

/-- R212 and L2-TMR-7: reload writes `T_CNT`; stop keeps it. -/
theorem test_reload_and_stop :
    nextWith (exec (.tmrReload 1000) (atCommand 0x3203E8)) (fun t => t.tCnt == 1000) = true ∧
    nextWith (exec .tmrStop { atCommand 0x340000 with tCnt := 7, tRun := true })
      (fun t => t.tCnt == 7 && !t.tRun) = true := by decide

/-- L2-SER-4 and L2-SER-5. -/
theorem test_write_stops :
    isFault (exec (.serWrite .l0 (.imm 1)) { atReady 0x410001 with line0 := { lineReady with txBusy := true } })
      (.txBusy main0 .l0) = true ∧
    isFault (exec (.serWrite .l0 (.imm 1)) (atCommand 0x410001)) (.lineUnconfig main0 .l0) = true := by decide

/-- L2-SER-6: the admitted configuration, and mode 0. -/
theorem test_ser_config :
    nextWith (exec (.serConfig .l0 1 false 2 true) (atCommand 0x470031))
      (fun t => t.line0.cfg == some { mode := 1, md := false, baud := 2, dbl := true }) = true ∧
    isRefusal (exec (.serConfig .l0 0 false 0 false) (atCommand 0x470000)) (.configNotModelled main0) = true := by
  decide

/-- L2-SER-11 and L2-SER-12: flag reads, and the clear keeps the byte. -/
theorem test_flag_reads :
    nextWith (exec (.serTxdone .l0) { atCommand 0 with line0 := { lineReady with ti := true } })
      (fun t => t.dl == some 1) = true ∧
    nextWith (exec (.serRxrdy .l0) (atCommand 0)) (fun t => t.dl == some 0) = true ∧
    nextWith (exec (.serClrrx .l0) { atCommand 0 with line0 := { lineReady with ri := true, rxData := some 0x61 } })
      (fun t => !t.line0.ri && t.line0.rxData == some 0x61) = true := by decide

/-- L2-SER-7: an undef byte is copied. -/
theorem test_read_undef :
    nextWith (exec (.serRead .l0) { atCommand 0 with dl := some 1 }) (fun t => t.dl == none) = true ∧
    nextWith (exec (.serClrtx .l0) { atCommand 0 with line0 := { lineReady with ti := true } })
      (fun t => !t.line0.ti) = true := by decide

/-- L2-SER-1: M1, and the completion with its event. -/
theorem test_sendb :
    nextWith (exec (.serSendb .l0 (.imm 0x61)) (atReady 0x480061))
      (fun t => t.line0.txBusy && t.line0.txData == some 0x61 && t.ctx.pc == 0) = true ∧
    (lineComplete .l0 { atReady 0 with line0 := { lineReady with txBusy := true, txData := some 0x61 } }).trace =
      [.tx .l0 0x61] := by decide

/-- L2-SER-9: both outcomes of an overrun. -/
theorem test_overrun :
    (lineDeliver .l0 0x62 true false { atReady 0 with line0 := { lineReady with ri := true, rxData := some 0x61 } }).line0.rxData =
      some 0x61 ∧
    (lineDeliver .l0 0x62 true true { atReady 0 with line0 := { lineReady with ri := true, rxData := some 0x61 } }).line0.rxData =
      some 0x62 := by decide

/-- L2-CTL-10: RX1 with one line. -/
theorem test_rx1_refused :
    isRefusal (exec (.intEnsrc (.rx .l1)) (atCommand 0x630002)) (.noSuchLine main0) = true ∧
    isRefusal (exec (.serSendb .l1 (.imm 0x61)) (atCommand 0x580061)) (.noSuchLine main0) = true := by decide

/-- R36, R285-R288: the bit that each gate command writes. -/
theorem test_gate_bits :
    nextWith (exec .intEnall (atCommand 0)) (fun t => t.ien.bits == 0b0001) = true ∧
    nextWith (exec (.intEnsrc .tick) (atCommand 0)) (fun t => t.ien.bits == 0b0010) = true ∧
    nextWith (exec (.intEnsrc (.rx .l0)) (atCommand 0)) (fun t => t.ien.bits == 0b0100) = true ∧
    nextWith (exec .intDisall (atCommand 0)) (fun t => t.ien.bits == 0) = true ∧
    nextWith (exec (.intDissrc .tick) (atCommand 0)) (fun t => t.ien.bits == 0) = true := by decide

/-- L2-LED-1 and L2-LED-8: the end of a lit phase, active high and active low. -/
theorem test_led_off :
    nextWith (exec .ledAdvance { atCommand 0 with litRem := 1 })
      (fun t => t.ledState == .unlit && t.offRem == 1000 && !t.ledOn && t.trace == [.led false]) = true ∧
    nextWith (exec .ledAdvance { atCommand 0 with litRem := 1, cfg := { exampleParams with ledActiveHigh := false } })
      (fun t => t.trace == [.led true]) = true := by decide

/-- L2-LED-4 and L2-LED-5: arming the breathing phase. -/
theorem test_led_breathing :
    nextWith (exec .ledAdvance { atCommand 0 with ledState := .unlit, ledOn := false, offRem := 1, duty := .d4,
                                                  cfg := { exampleParams with ledVariant := .breathing } })
      (fun t => t.litRem == 4000 && t.duty == .d3) = true ∧
    nextWith (exec .ledAdvance { atCommand 0 with ledState := .unlit, ledOn := false, offRem := 1, duty := .d1,
                                                  cfg := { exampleParams with ledVariant := .breathing } })
      (fun t => t.litRem == 1000 && t.duty == .d5) = true := by decide

/-- L2-LED-9: `LED.INIT` from `Unlit` and from reset. -/
theorem test_led_init :
    nextWith (exec .ledInit { atCommand 0 with ledState := .unlit, ledOn := false, litRem := 0, offRem := 3 })
      (fun t => t.ledState == .lit && t.litRem == 1000 && t.offRem == 1000 && t.trace == [.led true]) = true ∧
    nextWith (exec .ledInit (atCommand 0)) (fun t => t.trace == []) = true := by decide

/-- L2-ECHO-3 and L2-ECHO-4: classification comes before the busy check. -/
theorem test_onbyte_busy :
    isFault (exec (.echoOnbyte .dl) { atCommand 0x810100 with dl := some 0x61, echoBusy := true })
      (.echoReentry main0) = true ∧
    nextWith (exec (.echoOnbyte .dl) { atCommand 0x810100 with dl := some 0x35, echoBusy := true })
      (fun t => t.ctx.pc == 1 && t.echoBusy) = true := by decide

/-- L1-5: the guard passes for 'z'. -/
theorem test_onbyte_z :
    nextWith (exec (.echoOnbyte (.imm 0x7A)) (atCommand 0x81007A))
      (fun t => t.echoBusy && t.ctx.micro == some (.onbyte 0x61 26 (.e2 0))) = true := by decide

/-- L2-ECHO-11, and P0. -/
theorem test_replay :
    isFault (exec .echoReplay { atCommand 0x820000 with echoBusy := true }) (.echoReentry main0) = true ∧
    nextWith (exec .echoReplay (atCommand 0x820000)) (fun t => t.echoBusy && t.ctx.pc == 0) = true := by decide

/-- L2-ECHO-10: 0x7E is printable, 0x7F is not. -/
theorem test_printable :
    printable 0x20 = true ∧ printable 0x7E = true ∧ printable 0x7F = false ∧ printable 0x1F = false := by
  decide

/-- L2-TMR-8: tick entry from main. -/
theorem test_tick_entry :
    nextWith (step { atCommand 0x010000 with tf := true, ien := { ea := true, tick := true, rx0 := false, rx1 := false },
                                             dl := some 0x42, plan := [.accept .tick] })
      (fun t => t.ctx.pc == 0x0010 && !t.tf && t.kind == .tick && t.handlers.map Handler.savedDL == [some 0x42]) = true := by
  decide

/-- 95_test_vectors.md, EX: the default ROM listing. -/
theorem test_default_rom :
    defaultRom exampleParams =
      [0x620000, 0x710000, 0x470001, 0x310001, 0x3203E8, 0x330000, 0x630000, 0x610000, 0x820000,
       0x630001, 0x010000] ++ List.replicate 5 0x000000 ++ [0x3203E8, 0x720000, 0x020000] ++
      List.replicate 13 0x000000 ++ [0x640001, 0x420000, 0x460000, 0x810100, 0x630001, 0x020000] := by decide

/-- R345: the words that differ for `ECHO_LINE = 1`. -/
theorem test_default_rom_line1 :
    (defaultRom { twoLines with echoLine := .l1 })[0x02]? = some 0x570001 ∧
    (defaultRom { twoLines with echoLine := .l1 })[0x09]? = some 0x630002 := by decide

/-- R281, log 17: the word that `withFetchWord` places is what the next step runs. -/
theorem test_fetch_word :
    nextWith (step (State.reset.withFetchWord 24 0x610000)) (fun t => t.ien.ea && t.ctx.pc == 1) = true ∧
    decodeTableWord 24 0x610000 = some .intEnall := by decide

/-! ### Witnesses: for each obligation with hypotheses, states and operands that meet them -/

/-- Main at `w`, flash idle, cursor at the last byte of the region. -/
def atLastByte (w : CmdWord) : State := { atCommand w with addr := some 0x3FF }

/-- Main at `w` with the first `n` entries of `ECHO_BUF` written. -/
def withBuffer (w : CmdWord) (n : Nat) : State :=
  { atCommand w with
    echoBuf := Vector.ofFn fun i => if i.val < n then some (0x61 + BitVec.ofNat 8 i.val) else none }

/-- Line 0 ready and the slot holding these bytes. -/
def withSlot (w : CmdWord) (bs : List Byte) : State := { atReady w with mem := holding bs }

/-- A tick handler over an RX handler over main. -/
def threeFrames : State :=
  { atCommand 0 with
    handlers := [{ kind := .tick, level := 1, ctx := { pc := 0x10, past := false, micro := none }, savedDL := none },
                 rxFrame 0x23] }

/-- One instance of the word at main's pc. -/
theorem atCommand_atWord (w : CmdWord) : (atCommand w).atWord w := ⟨rfl, rfl, rfl⟩

theorem test_witness_DecodeOfEncodeIsTheCommand :
    (Instr.nvSave 26).wellFormed = true ∧ (Instr.serConfig .l1 3 true 3 true).wellFormed = true := by
  decide

theorem test_witness_EncodeOfDecodeIsTheWord : decode 0x25001A = .ok (.nvSave 26) := by decide

theorem test_witness_IllegalWordsAreRefused :
    (atCommand 0x25001B).running = true ∧ (atCommand 0x25001B).plan = .cpu :: [] ∧
    (atCommand 0x25001B).atWord 0x25001B ∧ illegalWord 0x25001B = true ∧ illegalWord 0x25001A = false :=
  ⟨rfl, rfl, ⟨rfl, rfl, rfl⟩, by decide, by decide⟩

theorem test_witness_StepRunsTheDecodedCommand :
    (atCommand 0x610000).running = true ∧ (atCommand 0x610000).plan = .cpu :: [] ∧
    (atCommand 0x610000).atWord 0x610000 ∧ decode 0x610000 = .ok .intEnall :=
  ⟨rfl, rfl, ⟨rfl, rfl, rfl⟩, by decide⟩

theorem test_witness_StepContinuesTheCommandInProgress :
    ((atReady 0x480061).setMicro (.sendb .l0 .m2)).running = true ∧
    ((atReady 0x480061).setMicro (.sendb .l0 .m2)).plan = .cpu :: [] ∧
    ((atReady 0x480061).setMicro (.sendb .l0 .m2)).ctx.micro = some (.sendb .l0 .m2) := by decide

theorem test_witness_StoppedMachineHasNoStep :
    ({ atCommand 0 with fault := some (.dlUndef main0) } : State).fault = some (.dlUndef main0) ∧
    ({ atCommand 0 with refused := some (.illegalEncoding main0) } : State).fault = none ∧
    ({ atCommand 0 with refused := some (.illegalEncoding main0) } : State).refused =
      some (.illegalEncoding main0) := by decide

/-- A step that stops: `CTL.RETI` in main. -/
theorem test_witness_StoppingChangesNothingElse :
    (atCommand 0x020000).running = true ∧
    nextWith (step (atCommand 0x020000)) (fun t => !t.running) = true := by decide

/-- In a ROM of 0x10000 words, main at its last word. -/
def atLastWord (m : Option Micro) : State :=
  { State.launch exampleParams (List.replicate 0x10000 0) Memory.erased with
    plan := [.cpu, .cpu], main := { pc := 0xFFFF, past := false, micro := m } }

/-- Past the ROM's last word; a word that is read at 0xFFFF; and a command that ends there. -/
theorem test_witness_FetchPastTheRomFaults :
    (({ atCommand 0 with main := { pc := 1, past := false, micro := none } } : State).running = true ∧
      ({ atCommand 0 with main := { pc := 1, past := false, micro := none } } : State).rom.length ≤ 1) ∧
    (atLastWord none).atWord 0 ∧
    (atLastWord (some (.sendb .l0 .m3))).running = true ∧
    (atLastWord (some (.sendb .l0 .m3))).ctx.pc = 0xFFFF ∧
    nextWith (step (atLastWord (some (.sendb .l0 .m3))))
      (fun t => t.handlers.length == 0 && t.ctx.pc != 0xFFFF) = true :=
  ⟨by decide, ⟨rfl, rfl, List.getElem?_replicate_of_lt (n := 0x10000) (i := 0xFFFF) (by decide)⟩, rfl, rfl,
    by decide⟩

theorem test_witness_IdleStaysAtItsCommand :
    (atCommand 0x010000).running = true ∧ (atCommand 0x010000).atWord 0x010000 := ⟨rfl, rfl, rfl, rfl⟩

theorem test_witness_RetiResumesThePreemptedFrame :
    (atCommand 0x020000).handlers = [] ∧
    threeFrames.handlers = threeFrames.handlers.head (by decide) :: [rxFrame 0x23] := by decide

/-- Each source: TICK, RX of the echo line, and RX of the other line. -/
theorem test_witness_EntryPushesTheHandlerFrame :
    (mayEnter .tick { atCommand 0 with tf := true, plan := [.accept .tick]
                                       ien := { ea := true, tick := true, rx0 := false, rx1 := false } } = true) ∧
    (mayEnter (.rx .l0) { atReady 0 with line0 := { lineReady with ri := true, rxData := some 0x65 }
                                         plan := [.accept (.rx .l0)]
                                         ien := { ea := true, tick := false, rx0 := true, rx1 := false } } = true) ∧
    mayEnter (.rx .l1) { atCommand 0 with cfg := twoLines, line1 := { lineReady with ri := true, rxData := some 0x65 }
                                          plan := [.accept (.rx .l1)]
                                          ien := { ea := true, tick := false, rx0 := false, rx1 := true } } = true := by
  decide

/-- A tick preempts an RX handler: three frames. -/
theorem test_witness_OnlyAHigherPriorityPreempts :
    nextWith (step { atCommand 0 with tf := true, plan := [.accept .tick], handlers := [rxFrame 0x23]
                                      ien := { ea := true, tick := true, rx0 := false, rx1 := false } })
      (fun t => t.handlers.length == 2) = true := by decide

theorem test_witness_HandlersNestByRisingLevel :
    threeFrames.nested ∧ nextWith (step { threeFrames with plan := [.timer] }) (fun _ => true) = true :=
  ⟨by unfold State.nested; decide, by decide⟩

theorem test_witness_GateCommandsWriteTheEnableTheyName :
    ({ atCommand 0 with cfg := twoLines } : State).cfg.nLines = .two ∧ (atCommand 0).cfg.nLines = .one := by
  decide

/-- `INT.ENALL` changes `IEN`, and so does a power cycle. -/
theorem test_witness_OnlyGateCommandsWriteIen :
    nextWith (step (atCommand 0x610000)) (fun t => t.ien != (atCommand 0x610000).ien) = true ∧
    nextWith (step { atCommand 0 with plan := [.power], ien := { ea := true, tick := false, rx0 := false, rx1 := false } })
      (fun t => !t.ien.ea) = true := by decide

/-- The first and the last byte of the region. -/
theorem test_witness_ReadsPutTheByteAtTheCursorIntoDl :
    (atLastByte 0x140000).addr = some 0x3FF ∧ (atLastByte 0x140000).cfg.inRegion 0x3FF = true ∧
    (atLastByte 0x140000).flBusy = false ∧ (atLastByte 0x140000).cfg.inRegion 0 = true := by decide

/-- Each check: `DL` undef; cursor undef; 0x0400 just outside the region; 0x03FF while busy. -/
theorem test_witness_FlashChecksReportTheFirstFailure :
    (atCommand 0x130100).dl = none ∧ (atCommand 0x130000).addr = none ∧
    (atLastByte 0x130000).cfg.inRegion 0x400 = false ∧
    (({ atLastByte 0x130000 with flBusy := true } : State).flBusy = true ∧
      (atLastByte 0x130000).cfg.inRegion 0x3FF = true) := by decide

theorem test_witness_FlashCommandsIssueTheirOperation :
    (atLastByte 0x1300FF).addr = some 0x3FF ∧ (atLastByte 0x1300FF).cfg.inRegion 0x3FF = true ∧
    (atLastByte 0x1300FF).flBusy = false ∧ operandIs (.imm 0xFF) (atLastByte 0x1300FF) 0xFF ∧
    ({ atCommand 0x25001A with flBusy := true } : State).flBusy = true :=
  ⟨rfl, by decide, rfl, .inl rfl, rfl⟩

theorem test_witness_EraseClearsTheSectorOfTheCursor :
    (atLastByte 0x120000).running = true ∧ (atLastByte 0x120000).atWord 0x120000 ∧
    (atLastByte 0x120000).addr = some 0x3FF ∧ (atLastByte 0x120000).cfg.inRegion 0x3FF = true ∧
    (atLastByte 0x120000).flBusy = false := ⟨rfl, ⟨rfl, rfl, rfl⟩, rfl, by decide, rfl⟩

/-- `NV.WRB DL` at the last byte of the region, which is fresh; and at a byte that is not fresh. -/
theorem test_witness_ProgramStoresTheByteAtTheCursor :
    ((atLastByte 0x230100).running = true ∧ (atLastByte 0x230100).atWord 0x230100 ∧
      decode 0x230100 = .ok (.nvWrb .dl) ∧
      operandIs .dl { atLastByte 0x230100 with dl := some 0x41 } 0x41 ∧
      (atLastByte 0x230100).addr = some 0x3FF ∧ (atLastByte 0x230100).cfg.inRegion 0x3FF = true ∧
      (atLastByte 0x230100).flBusy = false ∧ (atLastByte 0x230100).mem.wf ∧
      (atLastByte 0x230100).mem.fresh 0x3FF = true) ∧
    (holding [0x61]).wf ∧ (holding [0x61]).fresh 0 = false :=
  ⟨⟨rfl, ⟨rfl, rfl, rfl⟩, by decide, .inr ⟨rfl, rfl⟩, rfl, by decide, rfl, by decide, by decide⟩,
    by decide, by decide⟩

/-- An erase of the second sector and a program of a byte that is not fresh, both in flight. -/
theorem test_witness_EngineCarriesOutTheOperation :
    ({ atCommand 0 with plan := [.flash], flBusy := true, flOp := some (.erase 0x200) } : State).running = true ∧
    ({ atCommand 0 with plan := [.flash], flBusy := true, flOp := some (.erase 0x200) } : State).flOp =
      some (.erase 0x200) ∧
    ({ withSlot 0 [0x5A] with plan := [.flash], flBusy := true, flOp := some (.program 0 0x0F) } : State).flOp =
      some (.program 0 0x0F) ∧
    (withSlot 0 [0x5A]).mem.wf ∧ (withSlot 0 [0x5A]).mem.fresh 0 = false := by decide

theorem test_witness_FlashChangesOnlyByEngineOrPower :
    nextWith (step { atCommand 0 with plan := [.flash], flBusy := true, flOp := some (.program 0x10 0x5A) })
      (fun t => t.mem != (atCommand 0).mem) = true := by decide

theorem test_witness_FreshBytesReadErased :
    ({ withSlot 0 [0x61] with plan := [.flash], flBusy := true, flOp := some (.erase 0) } : State).mem.wf ∧
    ({ atCommand 0 with plan := [.flash], flBusy := true, flOp := some (.erase 0) } : State).freshErased ∧
    nextWith (step { withSlot 0 [0x61] with plan := [.flash], flBusy := true, flOp := some (.erase 0) })
      (fun t => t.mem == Memory.erased) = true :=
  ⟨by decide, fun _ _ => rfl, by decide⟩

/-- A program of the last byte of the region in flight. -/
theorem test_witness_FlashOperationsStayInTheRegion :
    exampleParams.valid = true ∧
    ({ atCommand 0 with plan := [.flash], flBusy := true, flOp := some (.program 0x3FF 0x41) } : State).engineSound ∧
    ({ atCommand 0 with plan := [.flash], flBusy := true, flOp := some (.program 0x3FF 0x41) } : State).flashInRegion ∧
    nextWith (step { atCommand 0 with plan := [.flash], flBusy := true, flOp := some (.program 0x3FF 0x41) })
      (fun t => t.mem.read 0x3FF == 0x41) = true :=
  ⟨by decide, ⟨rfl, by decide⟩, fun _ _ => ⟨rfl, rfl⟩, by decide⟩

/-- `NV.SAVE 26` with 26 letters in the buffer. -/
theorem test_witness_SaveStoresTheBufferInTheSlot :
    (withBuffer 0x25001A 26).running = true ∧ (withBuffer 0x25001A 26).cfg.valid = true ∧
    (withBuffer 0x25001A 26).mem.wf ∧ (withBuffer 0x25001A 26).atWord 0x25001A ∧
    decode 0x25001A = .ok (.nvSave 26) ∧ (withBuffer 0x25001A 26).flBusy = false ∧
    ∀ i, i < 26 → ∃ v, (withBuffer 0x25001A 26).echoBuf[i]? = some (some v) :=
  ⟨rfl, by decide, by decide, ⟨rfl, rfl, rfl⟩, by decide, rfl,
    fun i hi => ⟨0x61 + BitVec.ofNat 8 i, by
      simp [withBuffer, hi, Nat.lt_of_lt_of_le hi (by decide : 26 ≤ 27)]⟩⟩

theorem test_witness_SaveOfAnUndefEntryFaults :
    ((withBuffer 0x250002 1).setMicro (.nvSave 2 (.s3 1))).running = true ∧
    ((withBuffer 0x250002 1).setMicro (.nvSave 2 (.s3 1))).plan = .cpu :: [] ∧
    ((withBuffer 0x250002 1).setMicro (.nvSave 2 (.s3 1))).ctx.micro = some (.nvSave 2 (.s3 1)) ∧
    ((withBuffer 0x250002 1).setMicro (.nvSave 2 (.s3 1))).echoBuf[1]? = some none := by decide

/-- Busy; absent; present with a first byte 0x00. -/
theorem test_witness_LoadLooksAtTheFirstByte :
    ({ atCommand 0x260000 with flBusy := true } : State).flBusy = true ∧
    ((atCommand 0x260000).flBusy = false ∧ (atCommand 0x260000).mem.read 0 = 0xFF) ∧
    (withSlot 0x260000 [0x00]).mem.read 0 ≠ 0xFF := by decide

/-- A terminator at index 0 and at index 26, and a slot of 27 bytes with none. -/
theorem test_witness_LoadReadsUpToTheTerminator :
    ((withSlot 0x260000 [0x00]).running = true ∧ (withSlot 0x260000 [0x00]).cfg.valid = true ∧
      (withSlot 0x260000 [0x00]).flBusy = false ∧ (withSlot 0x260000 [0x00]).mem.read 0 ≠ 0xFF ∧
      (withSlot 0x260000 [0x00]).mem.read 0 = 0x00) ∧
    (withSlot 0x260000 [0x00]).atWord 0x260000 ∧
    ((holding (List.replicate 26 0x41 ++ [0x00])).read 0 ≠ 0xFF ∧
      (∀ j, j < 26 → (holding (List.replicate 26 0x41 ++ [0x00])).read (0 + j) ≠ 0x00) ∧
      (holding (List.replicate 26 0x41 ++ [0x00])).read (0 + 26) = 0x00) ∧
    (holding (List.replicate 27 0x41)).read 0 ≠ 0xFF ∧
    ∀ j, j < 27 → (holding (List.replicate 27 0x41)).read (0 + j) ≠ 0x00 :=
  ⟨by decide, ⟨rfl, rfl, rfl⟩, by decide, by decide, by decide⟩

/-- `NV.SAVE 1` of the letter 'a', and a later state with its flash. -/
theorem test_witness_LoadReturnsWhatSaveStored :
    ((withBuffer 0x250001 1).running = true ∧ (withBuffer 0x250001 1).cfg.valid = true ∧
      (withBuffer 0x250001 1).mem.wf ∧ decode 0x250001 = .ok (.nvSave 1) ∧
      (withBuffer 0x250001 1).flBusy = false ∧ (withBuffer 0x250001 1).echoBuf[0]? = some (some 0x61)) ∧
    (withBuffer 0x250001 1).atWord 0x250001 ∧
    runs (saveMoves 1) (withBuffer 0x250001 1) (endOf (saveMoves 1) (withBuffer 0x250001 1)) ∧
    (withSlot 0x260000 [0x61, 0x00]).mem = (endOf (saveMoves 1) (withBuffer 0x250001 1)).mem ∧
    (withSlot 0x260000 [0x61, 0x00]).running = true ∧
    (withSlot 0x260000 [0x61, 0x00]).cfg = (withBuffer 0x250001 1).cfg ∧
    (withSlot 0x260000 [0x61, 0x00]).atWord 0x260000 ∧ (withSlot 0x260000 [0x61, 0x00]).flBusy = false :=
  ⟨by decide, ⟨rfl, rfl, rfl⟩, ⟨rfl, by decide⟩, by decide, rfl, rfl, ⟨rfl, rfl, rfl⟩, rfl⟩

theorem test_witness_TimerCommandsWriteTheirRegister :
    ¬((1 : BitVec 2) = 1 ∧ true = false ∧ false = false) ∧ (atCommand 0x330000).tmrCfg = none ∧
    ({ atCommand 0x330000 with tmrCfg := some { mode := 1, gate := false, src := false } } : State).tmrCfg ≠ none := by
  decide

/-- `T_CNT = 0`: the 65536th event expires; `T_CNT = 1`: the first one. -/
theorem test_witness_TimerExpiresAfterItsCount :
    (({ atCommand 0 with tRun := true, tCnt := 0 } : State).running = true ∧
      ({ atCommand 0 with tRun := true, tCnt := 0 } : State).tRun = true ∧ 1 ≤ 65536 ∧
      65536 ≤ (if ({ atCommand 0 with tRun := true, tCnt := 0 } : State).tCnt = 0 then 65536 else 0)) ∧
    1 ≤ ({ atCommand 0 with tRun := true, tCnt := 1 } : State).tCnt.toNat := by decide

theorem test_witness_PeripheralFlagsKeepTheirPromise :
    (atReady 0x480061).timerSound ∧ (atReady 0x480061).line0.sound ∧ (atReady 0x480061).line1.sound ∧
    nextWith (step (atReady 0x480061)) (fun t => t.line0.txBusy) = true :=
  ⟨by unfold State.timerSound; decide, by unfold LineState.sound; decide, by unfold LineState.sound; decide,
    by decide⟩

/-- `DL` undef; line unconfigured; line busy; line ready. -/
theorem test_witness_WritesPutTheByteInFlight :
    (atCommand 0x410100).cfg.hasLine .l0 = true ∧ (atCommand 0x410100).dl = none ∧
    operandIs (.imm 0x61) (atCommand 0x410061) 0x61 ∧ ((atCommand 0x410061).line .l0).cfg = none ∧
    (({ atReady 0x410061 with line0 := { lineReady with txBusy := true } } : State).line .l0).txBusy = true ∧
    ((atReady 0x410061).line .l0).cfg ≠ none ∧ ((atReady 0x410061).line .l0).txBusy = false :=
  ⟨rfl, rfl, .inl rfl, rfl, rfl, by decide, rfl⟩

theorem test_witness_SerialQueriesAndClears :
    (atReady 0).cfg.hasLine .l0 = true ∧ ({ atReady 0 with cfg := twoLines } : State).cfg.hasLine .l1 = true := by
  decide

theorem test_witness_SerialConfigWritesTheRecord :
    (atCommand 0x47003D).cfg.hasLine .l0 = true ∧ ¬((1 : BitVec 2) = 1 ∧ true = false) := by decide

theorem test_witness_CommandsOfAnAbsentLineAreRefused : (atCommand 0x520000).cfg.nLines = .one := by decide

/-- `TI` clear, and `TI` stale. -/
theorem test_witness_SendbSendsItsByte :
    ((atReady 0x480061).running = true ∧ (atReady 0x480061).atWord 0x480061 ∧
      decode 0x480061 = .ok (.serSendb .l0 (.imm 0x61)) ∧ (atReady 0x480061).cfg.hasLine .l0 = true ∧
      operandIs (.imm 0x61) (atReady 0x480061) 0x61 ∧ ((atReady 0x480061).line .l0).cfg ≠ none ∧
      ((atReady 0x480061).line .l0).txBusy = false ∧ ((atReady 0x480061).line .l0).ti = false) ∧
    (({ atReady 0x480061 with line0 := { lineReady with ti := true } } : State).line .l0).txBusy = false ∧
    (({ atReady 0x480061 with line0 := { lineReady with ti := true } } : State).line .l0).ti = true :=
  ⟨⟨rfl, ⟨rfl, rfl, rfl⟩, by decide, rfl, .inl rfl, by decide, rfl, rfl⟩, rfl, rfl⟩

/-- A send of its own, and the two that are nested. -/
theorem test_witness_SendbWithoutAcknowledgementHoldsForEver :
    ∀ m ∈ [Micro.sendb .l0 .m2, .onbyte 0x61 26 (.e2Send 25 .m2), .replay (.p3Send 26 .m2)],
      ((atReady 0x480061).setMicro m).running = true ∧
      ((atReady 0x480061).setMicro m).ctx.micro = some m ∧
      Line.l0 = ((atReady 0x480061).setMicro m).cfg.echoLine ∧
      (((atReady 0x480061).setMicro m).line .l0).ti = false := by decide

/-- A byte in flight; an unconfigured line; a free line; an overrun. -/
theorem test_witness_LineAgentsSendAndDeliver :
    (({ atReady 0 with plan := [.lineTx .l0], line0 := { lineReady with txBusy := true, txData := some 0x61 } } : State).line .l0).txBusy = true ∧
    (({ atReady 0 with plan := [.lineTx .l0], line0 := { lineReady with txBusy := true, txData := some 0x61 } } : State).line .l0).txData = some 0x61 ∧
    ((atCommand 0).line .l0).cfg = none ∧
    (((atReady 0).line .l0).cfg ≠ none ∧ ((atReady 0).line .l0).ri = false) ∧
    (({ atReady 0 with line0 := { lineReady with ri := true, rxData := some 0x61 } } : State).line .l0).ri = true ∧
    (atReady 0).running = true ∧ (atReady 0).cfg.hasLine .l0 = true := by decide

theorem test_witness_LinesShareNoState :
    Line.l1 ≠ Line.l0 ∧ nextWith (exec (.serSendb .l0 (.imm 0x61)) (atReady 0x480061)) (fun _ => true) = true ∧
    nextWith (resume (.sendb .l0 .m3) (atReady 0x480061)) (fun _ => true) = true := by decide

/-- Each phase, its counter at 2 and at 1, for both variants. -/
theorem test_witness_AdvanceCountsDownAndTurnsThePhase :
    (({ atCommand 0x720000 with litRem := 2 } : State).ledState = .lit ∧
      ({ atCommand 0x720000 with litRem := 2 } : State).litRem ≠ 1) ∧
    ({ atCommand 0x720000 with litRem := 1 } : State).litRem = 1 ∧
    (({ atCommand 0x720000 with ledState := .unlit, offRem := 2 } : State).ledState = .unlit ∧
      ({ atCommand 0x720000 with ledState := .unlit, offRem := 2 } : State).offRem ≠ 1) ∧
    (({ atCommand 0x720000 with ledState := .unlit, offRem := 1 } : State).offRem = 1 ∧
      ({ atCommand 0x720000 with ledState := .unlit, offRem := 1 } : State).cfg.ledVariant = .fixed) ∧
    ({ atCommand 0x720000 with cfg := { exampleParams with ledVariant := .breathing } } : State).cfg.ledVariant =
      .breathing := by decide

theorem test_witness_LitPhaseLastsItsCount :
    ({ atCommand 0 with litRem := 65535 } : State).ledState = .lit ∧
    ({ atCommand 0 with litRem := 65535 } : State).litRem.toNat = 65535 ∧
    ({ atCommand 0 with litRem := 1 } : State).litRem.toNat = 1 := by decide

theorem test_witness_FixedBlinkPeriodIs2000Ticks :
    (atCommand 0).cfg.ledVariant = .fixed ∧ (atCommand 0).ledState = .lit ∧ (atCommand 0).litRem = 1000 ∧
    (atCommand 0).ledOn = true := by decide

/-- A breathing block after reset. -/
theorem test_witness_BreathingCycleIs20000Ticks :
    (State.launch { exampleParams with ledVariant := .breathing } [] Memory.erased).ledState = .lit ∧
    (State.launch { exampleParams with ledVariant := .breathing } [] Memory.erased).litRem = 5000 ∧
    (State.launch { exampleParams with ledVariant := .breathing } [] Memory.erased).duty = .d4 ∧
    (State.launch { exampleParams with ledVariant := .breathing } [] Memory.erased).ledOn = true := by decide

/-- The advance that turns the LED off. -/
theorem test_witness_LedFollowsItsState :
    ({ atCommand 0x720000 with litRem := 1 } : State).ledSound ∧
    nextWith (step { atCommand 0x720000 with litRem := 1 }) (fun t => !t.ledOn) = true :=
  ⟨⟨rfl, by decide⟩, by decide⟩

/-- The bytes just outside both ranges of letters. -/
theorem test_witness_NonLettersAreDroppedSilently :
    operandIs (.imm 0x60) (atCommand 0x810060) 0x60 ∧
    ∀ v ∈ [(0x60 : Byte), 0x7B, 0x40, 0x5B, 0x00, 0xFF],
      ¬(0x61 ≤ v.toNat ∧ v.toNat ≤ 0x7A) ∧ ¬(0x41 ≤ v.toNat ∧ v.toNat ≤ 0x5A) :=
  ⟨.inl rfl, by decide⟩

/-- The first and the last letter of each range, and an echo in flight. -/
theorem test_witness_LetterStartsARun :
    (atCommand 0x810100).dl = none ∧ operandIs (.imm 0x7A) (atCommand 0x81007A) 0x7A ∧
    (∀ v ∈ [(0x61 : Byte), 0x7A], 0x61 ≤ v.toNat ∧ v.toNat ≤ 0x7A) ∧
    (∀ v ∈ [(0x41 : Byte), 0x5A], 0x41 ≤ v.toNat ∧ v.toNat ≤ 0x5A) ∧
    (atCommand 0x81007A).echoBusy = false ∧
    ({ atCommand 0x81007A with echoBusy := true } : State).echoBusy = true :=
  ⟨rfl, .inl rfl, by decide, by decide, rfl, rfl⟩

/-- 'z', whose run fills the slot. -/
theorem test_witness_EchoSendsAndStoresTheRun :
    (atReady 0x81007A).running = true ∧ (atReady 0x81007A).cfg.valid = true ∧ (atReady 0x81007A).mem.wf ∧
    (atReady 0x81007A).atWord 0x81007A ∧ decode 0x81007A = .ok (.echoOnbyte (.imm 0x7A)) ∧
    operandIs (.imm 0x7A) (atReady 0x81007A) 0x7A ∧
    (0x61 ≤ (0x7A : Byte).toNat ∧ (0x7A : Byte).toNat ≤ 0x7A) ∧
    26 = (0x7A : Byte).toNat - (0x61 : Byte).toNat + 1 ∧ (atReady 0x81007A).echoBusy = false ∧
    (atReady 0x81007A).flBusy = false ∧ ((atReady 0x81007A).line .l0).cfg ≠ none ∧
    ((atReady 0x81007A).line .l0).txBusy = false ∧ ((atReady 0x81007A).line .l0).ti = false :=
  ⟨rfl, by decide, by decide, ⟨rfl, rfl, rfl⟩, by decide, .inl rfl, by decide, by decide, rfl, rfl, by decide,
    rfl, rfl⟩

theorem test_witness_ReplayOfAnAbsentSlotSendsNothing :
    ({ atCommand 0x820000 with echoBusy := true } : State).echoBusy = true ∧
    (atCommand 0x820000).running = true ∧ (atCommand 0x820000).atWord 0x820000 ∧
    (atCommand 0x820000).echoBusy = false ∧ (atCommand 0x820000).flBusy = false ∧
    (atCommand 0x820000).mem.read 0 = 0xFF := ⟨rfl, rfl, ⟨rfl, rfl, rfl⟩, rfl, rfl, by decide⟩

/-- No byte; 26 bytes at both ends of the printable range; and 27 bytes with no terminator. -/
theorem test_witness_ReplaySendsTheStoredRun :
    ((withSlot 0x820000 [0x00]).mem.read (0 + 0) = 0x00) ∧
    (withSlot 0x820000 [0x00]).atWord 0x820000 ∧
    ((withSlot 0x820000 [0x00]).running = true ∧ (withSlot 0x820000 [0x00]).cfg.valid = true ∧
      (withSlot 0x820000 [0x00]).echoBusy = false ∧ (withSlot 0x820000 [0x00]).flBusy = false ∧
      ((withSlot 0x820000 [0x00]).line .l0).cfg ≠ none ∧ ((withSlot 0x820000 [0x00]).line .l0).txBusy = false ∧
      ((withSlot 0x820000 [0x00]).line .l0).ti = false) ∧
    (∀ j, j < 26 →
      0x20 ≤ ((holding (0x20 :: List.replicate 25 0x7E ++ [0x00])).read (0 + j)).toNat ∧
        ((holding (0x20 :: List.replicate 25 0x7E ++ [0x00])).read (0 + j)).toNat ≤ 0x7E) ∧
    (holding (0x20 :: List.replicate 25 0x7E ++ [0x00])).read (0 + 26) = 0x00 ∧
    ∀ j, j < 27 → 0x20 ≤ ((holding (List.replicate 27 0x41)).read (0 + j)).toNat ∧
      ((holding (List.replicate 27 0x41)).read (0 + j)).toNat ≤ 0x7E :=
  ⟨by decide, ⟨rfl, rfl, rfl⟩, by decide, by decide, by decide, by decide⟩

/-- The end of the run, and the bytes just outside the printable range. -/
theorem test_witness_ReplayStopsAtANonPrintableByte :
    ((atReady 0x820000).setMicro (.replay (.p3 0))).running = true ∧
    ((atReady 0x820000).setMicro (.replay (.p3 0))).plan = .cpu :: [] ∧
    ((atReady 0x820000).setMicro (.replay (.p3 0))).ctx.micro = some (.replay (.p3 0)) ∧
    ((atReady 0x820000).setMicro (.replay (.p3 0))).loadLen.val = 0 ∧
    (({ atReady 0x820000 with loadLen := 1, loadBuf := Vector.replicate 27 (some 0x7F) } : State).loadBuf[0]? =
      some (some 0x7F)) ∧ 0x7E < (0x7F : Byte).toNat ∧ (0x1F : Byte).toNat < 0x20 := by decide

theorem test_witness_LaunchHoldsTheResetValues :
    State.reset = State.launch exampleParams (defaultRom exampleParams) Memory.erased ∧
    exampleParams.ledVariant = .fixed := ⟨rfl, rfl⟩

theorem test_witness_LaunchMeetsTheInvariants :
    State.reset = State.launch exampleParams (defaultRom exampleParams) Memory.erased := rfl

/-- R8: the domains of `F_OSC`, `PRESCALER` and `ROM_SIZE`. -/
theorem test_domains :
    exampleParams.valid = true ∧ { exampleParams with fOsc := 0 }.valid = false ∧
    { exampleParams with prescaler := 0 }.valid = false ∧ romFits (defaultRom exampleParams) = true ∧
    romFits (List.replicate 0x25 0) = false ∧ romFits (List.replicate 0x26 0) = true := by decide

/-- Main at `CTL.IDLE` and nothing else enabled: the state that repeats itself. -/
def idle : State := { atCommand 0x010000 with plan := [] }

/-- R349, R351: a run that is weakly fair and loses no power. -/
theorem test_fair_run :
    isRun (fun _ => .cpu) (fun _ => idle) ∧ weaklyFair (fun _ => .cpu) (fun _ => idle) ∧
    noPowerLoss (fun _ => .cpu) (fun _ => idle) := by
  refine ⟨fun _ => ⟨fun _ => rfl, fun _ => rfl⟩, fun d n h => ⟨n, Nat.le_refl n, ?_⟩, fun _ _ => Move.noConfusion⟩
  have hd : duty d idle = true := h n (Nat.le_refl n)
  cases d with
  | cpu => exact .inl rfl
  | accept src => cases src with
    | tick => exact absurd hd (by decide)
    | rx k => cases k <;> exact absurd hd (by decide)
  | timer => exact absurd hd (by decide)
  | flash => exact absurd hd (by decide)
  | lineTx k => cases k <;> exact absurd hd (by decide)
  | lineRx => exact Bool.noConfusion hd
  | power => exact absurd hd (by decide)

/-- R351: a run that keeps the timer running and never lets an event occur is not weakly fair. -/
theorem test_unfair_run :
    ¬weaklyFair (fun _ => .cpu) (fun _ => ({ idle with tRun := true } : State)) := fun h => by
  have on : duty .timer { idle with tRun := true } = true := by decide
  obtain ⟨_, -, ht | ⟨ht, -⟩⟩ := h .timer 0 fun _ _ => on
  · exact absurd (show mover .cpu { idle with tRun := true } = .timer from ht) (by decide)
  · cases ht

/-- Nothing in flight; an erase in flight; a program in flight. -/
theorem test_witness_PowerCycleKeepsOnlyFlash :
    (({ atCommand 0 with plan := [.power] } : State).running = true ∧
      ({ atCommand 0 with plan := [.power] } : State).flBusy = false) ∧
    ({ atCommand 0 with plan := [.power], flBusy := true, flOp := some (.erase 0x200) } : State).flOp =
      some (.erase 0x200) ∧
    ({ atCommand 0 with plan := [.power], flBusy := true, flOp := some (.program 3 0x64) } : State).flOp =
      some (.program 3 0x64) := by decide

theorem test_witness_StepsKeepTheRunAndExtendTheTrace :
    nextWith (step { atReady 0 with plan := [.lineRx .l0 0x71 true true] })
      (fun t => t.trace == [.rx .l0 0x71]) = true := by decide

end Sys2Proof.Tests
end

namespace Sys2Proof.Machine

/-! ### Every step keeps the run and extends the trace (00_scope.md R8, 10_state.md R33, R58) -/

/-- `t` belongs to the run of `s`, later: the same parameters and ROM, and a trace that goes on from
the trace of `s`. The steps of all agents have this in common; `CpuKeeps` is the CPU's stronger one. -/
structure ExtendsRun (s t : State) : Prop where
  cfg : t.cfg = s.cfg
  rom : t.rom = s.rom
  trace : s.trace <+: t.trace

variable {s t : State}

theorem ExtendsRun.of_eq (hcfg : t.cfg = s.cfg) (hrom : t.rom = s.rom)
    (htrace : t.trace = s.trace) : ExtendsRun s t :=
  ⟨hcfg, hrom, htrace ▸ List.prefix_rfl⟩

/-- A step that appends the events `es` to the trace. -/
theorem ExtendsRun.of_append {es : List Event} (hcfg : t.cfg = s.cfg) (hrom : t.rom = s.rom)
    (htrace : t.trace = s.trace ++ es) : ExtendsRun s t :=
  ⟨hcfg, hrom, htrace ▸ List.prefix_append _ _⟩

theorem CpuKeeps.extendsRun (h : CpuKeeps s t) : ExtendsRun s t :=
  ⟨h.cfg, h.rom, h.trace⟩

theorem enterSource_extendsRun {src : Source} (h : enterSource src s = .next t) :
    ExtendsRun s t := by
  obtain ⟨_, -, -, -, -, -, -, rfl⟩ := enterSource_next h
  exact .of_eq rfl rfl rfl

theorem timerClock_extendsRun (s : State) : ExtendsRun s (timerClock s) := .of_eq rfl rfl rfl

theorem lineComplete_extendsRun (k : Line) (s : State) : ExtendsRun s (lineComplete k s) := by
  unfold lineComplete
  split
  · exact .of_append rfl rfl rfl
  · exact .of_append rfl rfl rfl

theorem lineDeliver_extendsRun (k : Line) (b : Byte) (received newest : Bool) (s : State) :
    ExtendsRun s (lineDeliver k b received newest s) := by
  unfold lineDeliver
  split
  · exact .of_append rfl rfl rfl
  · exact .of_append rfl rfl rfl

theorem flashComplete_extendsRun (s : State) : ExtendsRun s (flashComplete s) := by
  unfold flashComplete
  split
  · exact .of_eq rfl rfl rfl
  · exact .of_eq rfl rfl rfl
  · exact .of_eq rfl rfl rfl

theorem powerCycle_extendsRun (s : State) : ExtendsRun s (powerCycle s) :=
  .of_append rfl rfl rfl

/-- Whichever agent moves, its step keeps the run. -/
theorem takeMove_extendsRun {m : Move} (h : takeMove m s = .next t) : ExtendsRun s t := by
  rcases takeMove_next h with h | ⟨_, -, -, h⟩ | ⟨-, -, rfl⟩ | ⟨_, -, -, -, rfl⟩ |
    ⟨_, _, _, _, -, -, rfl⟩ | ⟨-, -, rfl⟩ | ⟨-, rfl⟩
  · exact (cpuStep_keeps h).extendsRun
  · exact enterSource_extendsRun h
  · exact timerClock_extendsRun s
  · exact lineComplete_extendsRun _ s
  · exact lineDeliver_extendsRun _ _ _ _ s
  · exact flashComplete_extendsRun s
  · exact powerCycle_extendsRun s

/-- Taking the move off the plan changes neither parameters, ROM nor trace, and neither does recording
a stop; what is left of a step is the mover's own. -/
theorem step_extendsRun (h : step s = .next t) : ExtendsRun s t := by
  obtain ⟨-, -, hm | ⟨_, -, rfl⟩ | ⟨_, -, rfl⟩⟩ := step_next h
  · obtain ⟨hcfg, hrom, htrace⟩ := takeMove_extendsRun hm
    exact ⟨hcfg, hrom, htrace⟩
  · exact .of_eq rfl rfl rfl
  · exact .of_eq rfl rfl rfl

/-- Settles O60: of the agents' steps, only the CPU's LED writes, the lines' and the power cycle's
append events, and none writes the parameters or the ROM. -/
theorem stepsKeepTheRunAndExtendTheTrace : Obligations.StepsKeepTheRunAndExtendTheTrace := by
  intro s t h
  obtain ⟨hcfg, hrom, htrace⟩ := step_extendsRun h
  exact ⟨hcfg, hrom, htrace⟩

end Sys2Proof.Machine

namespace Sys2Proof.Machine

/-! ### What a step keeps of frames, gate and flash engine (10_state.md R34, R36, R39) -/

/-- The step from `s` to `t` leaves every frame and `IEN` alone, and a sound engine stays sound. It
holds of each agent's step but interrupt entry and the power cycle, and of what a CPU micro-step
does before its frame moves on, but for `CTL.RETI` and the gate commands. -/
structure KeepsControl (s t : State) : Prop where
  cfg : t.cfg = s.cfg
  main : t.main = s.main
  handlers : t.handlers = s.handlers
  ien : t.ien = s.ien
  engine : s.cfg.valid = true → s.engineSound → t.engineSound

/-- How a CPU micro-step leaves its frame: holding where it stands, at the command's end, or at the
command's next micro-step; `u` is the state with the micro-step's effect. -/
inductive MicroStep (s : State) : State → Prop where
  | holds {u : State} : KeepsControl s u → MicroStep s u
  | ends {u : State} : KeepsControl s u → MicroStep s u.finish
  | goesOn {u : State} {m : Micro} : KeepsControl s u → MicroStep s (u.setMicro m)

/-- The commands that write `IEN` (46_control.md R285-R288). -/
def writesGate (i : Instr) : Prop :=
  i = .intEnall ∨ i = .intDisall ∨ (∃ src, i = .intEnsrc src) ∨ ∃ src, i = .intDissrc src

variable {s t u : State}

/-! ### Soundness of the engine -/

theorem engineSound_of_eq (hcfg : t.cfg = s.cfg) (hbusy : t.flBusy = s.flBusy)
    (hop : t.flOp = s.flOp) (h : s.engineSound) : t.engineSound := by
  unfold State.engineSound at h ⊢
  rwa [hcfg, hbusy, hop]

theorem engineSound_issue_erase {a : Nat} (h : s.cfg.inRegion a = true) :
    (s.issue (.erase (s.cfg.sectorBase a))).engineSound := ⟨rfl, a, h, rfl⟩

theorem engineSound_issue_program {a : Nat} {v : Byte} (h : s.cfg.inRegion a = true) :
    (s.issue (.program a v)).engineSound := ⟨rfl, h⟩

theorem engineSound_idle (hbusy : s.flBusy = false) (hop : s.flOp = none) : s.engineSound := by
  simp [State.engineSound, hbusy, hop]

/-- R9: the slot lies in the region. -/
theorem valid_slot_inRegion {p : Params} (h : p.valid = true) :
    p.inRegion p.slotAddr.toNat = true := by
  simp only [Params.valid, Bool.and_eq_true, decide_eq_true_eq] at h
  simp only [Params.inRegion, Bool.and_eq_true, decide_eq_true_eq]
  omega

/-! ### The two relations -/

/-- An update that writes neither frames, `IEN` nor the engine. -/
theorem KeepsControl.of_eq (hcfg : t.cfg = s.cfg) (hmain : t.main = s.main)
    (hhandlers : t.handlers = s.handlers) (hien : t.ien = s.ien) (hbusy : t.flBusy = s.flBusy)
    (hop : t.flOp = s.flOp) : KeepsControl s t :=
  ⟨hcfg, hmain, hhandlers, hien, fun _ => engineSound_of_eq hcfg hbusy hop⟩

theorem KeepsControl.refl (s : State) : KeepsControl s s := .of_eq rfl rfl rfl rfl rfl rfl

theorem KeepsControl.trans (h : KeepsControl s t) (g : KeepsControl t u) : KeepsControl s u :=
  ⟨g.cfg.trans h.cfg, g.main.trans h.main, g.handlers.trans h.handlers, g.ien.trans h.ien,
    fun hv he => g.engine (h.cfg ▸ hv) (h.engine hv he)⟩

theorem KeepsControl.ctx (h : KeepsControl s t) : t.ctx = s.ctx := by
  unfold State.ctx; rw [h.handlers, h.main]

theorem KeepsControl.kind (h : KeepsControl s t) : t.kind = s.kind := by
  unfold State.kind; rw [h.handlers]

theorem KeepsControl.issue_erase {a : Nat} (h : s.cfg.inRegion a = true) :
    KeepsControl s (s.issue (.erase (s.cfg.sectorBase a))) :=
  ⟨rfl, rfl, rfl, rfl, fun _ _ => engineSound_issue_erase h⟩

theorem KeepsControl.issue_program {a : Nat} {v : Byte} (h : s.cfg.inRegion a = true) :
    KeepsControl s (s.issue (.program a v)) :=
  ⟨rfl, rfl, rfl, rfl, fun _ _ => engineSound_issue_program h⟩

/-- A micro-step whose effect begins with the update from `s` to `u`. -/
theorem MicroStep.after (h : MicroStep u t) (g : KeepsControl s u) : MicroStep s t := by
  cases h with
  | holds h => exact .holds (g.trans h)
  | ends h => exact .ends (g.trans h)
  | goesOn h => exact .goesOn (g.trans h)

theorem MicroStep.ien (h : MicroStep s t) : t.ien = s.ien := by
  cases h with
  | holds h => exact h.ien
  | ends h => exact h.ien
  | goesOn h => exact h.ien

theorem MicroStep.engineSound (h : MicroStep s t) (hv : s.cfg.valid = true) (he : s.engineSound) :
    t.engineSound := by
  cases h with
  | holds h => exact h.engine hv he
  | ends h => exact h.engine hv he
  | goesOn h => exact h.engine hv he

/-- A micro-step that moves the pointer ends its command, in the same frame. -/
theorem MicroStep.nextCommand_of_pc (h : MicroStep s t) (hpc : t.ctx.pc ≠ s.ctx.pc) :
    nextCommand s t ∧ t.kind = s.kind := by
  cases h with
  | holds h => exact absurd (by rw [h.ctx]) hpc
  | ends h => exact ⟨nextCommand_finish h.ctx, (State.finish_kind _).trans h.kind⟩
  | goesOn h => exact absurd (by rw [State.setMicro_ctx, h.ctx]) hpc

/-! ### The micro-steps of the shared operations -/

theorem microStep_finish (h : Host.Outcome.next s.finish = (.next t : Result)) : MicroStep s t := by
  cases h; exact .ends (.refl _)

theorem microStep_setMicro {m : Micro} (h : Host.Outcome.next (s.setMicro m) = (.next t : Result)) :
    MicroStep s t := by
  cases h; exact .goesOn (.refl _)

theorem KeepsControl.lightUp (s : State) : KeepsControl s (lightUp s) := by
  unfold Machine.lightUp
  cases s.cfg.ledVariant <;> exact .of_eq rfl rfl rfl rfl rfl rfl

theorem KeepsControl.ledTick (s : State) : KeepsControl s (ledTick s) := by
  unfold Machine.ledTick
  cases s.ledState with
  | lit => simp only; split <;> exact .of_eq rfl rfl rfl rfl rfl rfl
  | unlit =>
    simp only
    split
    · exact .trans (t := { s with offRem := s.offRem - 1 }) (.of_eq rfl rfl rfl rfl rfl rfl)
        (.lightUp _)
    · exact .of_eq rfl rfl rfl rfl rfl rfl

theorem KeepsControl.ledArm (s : State) : KeepsControl s (ledArm s) := by
  unfold Machine.ledArm
  cases s.cfg.ledVariant <;> exact .of_eq rfl rfl rfl rfl rfl rfl

theorem microStep_programM1 {b : ByteOp} {m : Micro} (h : programM1 b m s = .next t) :
    MicroStep s t := by
  obtain ⟨_, _, -, -, hr, -, rfl⟩ := programM1_next.1 h
  exact .goesOn (.issue_program hr)

theorem microStep_holdFlash (h : holdFlash s = .next t) : MicroStep s t := by
  unfold holdFlash at h
  split at h
  · cases h; exact .holds (.refl _)
  · exact microStep_finish h

theorem microStep_writeLine {k : Line} {b : Byte} {c : State → Result}
    (hc : ∀ u v, c u = .next v → MicroStep u v) (h : writeLine k b s c = .next t) :
    MicroStep s t :=
  .after (hc _ _ (writeLine_next.1 h).2.2) (.of_eq rfl rfl rfl rfl rfl rfl)

theorem microStep_saveStart {c : State → Result} (hc : ∀ u v, c u = .next v → MicroStep u v)
    (h : saveStart s c = .next t) : MicroStep s t :=
  .after (hc _ _ (saveStart_next.1 h).2)
    ⟨rfl, rfl, rfl, rfl, fun hv _ => engineSound_issue_erase (valid_slot_inRegion hv)⟩

section
variable {fin : State → Result}

theorem microStep_sendNext {k : Line} {p : SendPos} {more : SendPos → State → Result}
    (hm : ∀ p u v, more p u = .next v → MicroStep u v)
    (hf : ∀ u v, fin u = .next v → MicroStep u v) (h : sendNext k p s more fin = .next t) :
    MicroStep s t := by
  rcases sendNext_next h with ⟨-, -, h⟩ | ⟨-, -, h⟩ | ⟨-, h⟩
  · exact hm _ _ _ h
  · exact hm _ _ _ h
  · exact .after (hf _ _ h) (.of_eq rfl rfl rfl rfl rfl rfl)

theorem microStep_saveNext {n : Nat} {p : SavePos} {more : SavePos → State → Result}
    (hm : ∀ p u v, more p u = .next v → MicroStep u v)
    (hf : ∀ u v, fin u = .next v → MicroStep u v) (h : saveNext n p s more fin = .next t) :
    MicroStep s t := by
  rcases saveNext_next h with ⟨-, -, h⟩ | ⟨-, -, h⟩ | ⟨_, _, _, -, -, -, hr, -, h⟩ | ⟨_, -, -, h⟩ |
    ⟨_, -, -, -, h⟩ | ⟨_, -, -, -, h⟩
  · exact hm _ _ _ h
  · exact hm _ _ _ h
  · exact .after (hm _ _ _ h) (.issue_program hr)
  · exact hm _ _ _ h
  · exact .after (hm _ _ _ h) (.of_eq rfl rfl rfl rfl rfl rfl)
  · exact .after (hf _ _ h) (.of_eq rfl rfl rfl rfl rfl rfl)

theorem microStep_loadStart {more : LoadPos → State → Result}
    (hm : ∀ p u v, more p u = .next v → MicroStep u v)
    (hf : ∀ u v, fin u = .next v → MicroStep u v) (h : loadStart s more fin = .next t) :
    MicroStep s t := by
  rcases (loadStart_next h).2 with ⟨-, h⟩ | ⟨-, h⟩
  · exact .after (hf _ _ h) (.of_eq rfl rfl rfl rfl rfl rfl)
  · exact .after (hm _ _ _ h) (.of_eq rfl rfl rfl rfl rfl rfl)

theorem microStep_loadNext {p : LoadPos} {more : LoadPos → State → Result}
    (hm : ∀ p u v, more p u = .next v → MicroStep u v)
    (hf : ∀ u v, fin u = .next v → MicroStep u v) (h : loadNext p s more fin = .next t) :
    MicroStep s t := by
  rcases loadNext_next h with ⟨_, -, h⟩ | ⟨_, _, -, -, _, h⟩ | ⟨_, _, -, -, -, h⟩ |
    ⟨_, _, -, -, -, -, h⟩
  · exact .after (hf _ _ h) (.of_eq rfl rfl rfl rfl rfl rfl)
  · exact .after (hm _ _ _ h) (.of_eq rfl rfl rfl rfl rfl rfl)
  · exact .after (hf _ _ h) (.of_eq rfl rfl rfl rfl rfl rfl)
  · exact .after (hm _ _ _ h) (.of_eq rfl rfl rfl rfl rfl rfl)

end

/-- The first micro-step of a command that neither returns from a handler nor writes `IEN`. -/
theorem exec_microStep {i : Instr} (hreti : i ≠ .reti) (hgate : ¬ writesGate i)
    (h : exec i s = .next t) : MicroStep s t := by
  cases i with
  | reti => exact absurd rfl hreti
  | intEnall => exact absurd (.inl rfl) hgate
  | intDisall => exact absurd (.inr (.inl rfl)) hgate
  | intEnsrc src => exact absurd (.inr (.inr (.inl ⟨src, rfl⟩))) hgate
  | intDissrc src => exact absurd (.inr (.inr (.inr ⟨src, rfl⟩))) hgate
  | nop => exact microStep_finish h
  | idle => cases h; exact .holds (.refl _)
  | flSetaddr a => exact .after (microStep_finish h) (.of_eq rfl rfl rfl rfl rfl rfl)
  | flErase =>
    obtain ⟨a, -, hr, h⟩ := withCursor_next.1 h
    cases (flashIdle_next.1 h).2
    exact .goesOn (.issue_erase hr)
  | flProg b => exact microStep_programM1 h
  | flRead =>
    simp only [exec, execFlRead] at h
    obtain ⟨a, -, -, -, h⟩ := readCursor_next.1 h
    exact .after (microStep_finish h) (.of_eq rfl rfl rfl rfl rfl rfl)
  | nvWrb b => exact microStep_programM1 h
  | nvRdb =>
    simp only [exec, execNvRdb] at h
    obtain ⟨a, -, -, -, h⟩ := readCursor_next.1 h
    exact .after (microStep_finish h) (.of_eq rfl rfl rfl rfl rfl rfl)
  | nvSave n => exact microStep_saveStart (fun _ _ => microStep_setMicro) h
  | nvLoad =>
    exact microStep_loadStart (fun _ _ _ => microStep_setMicro) (fun _ _ => microStep_finish) h
  | tmrConfig mode gate src =>
    simp only [exec, execTmrConfig] at h
    split at h
    · cases h
    · exact .after (microStep_finish h) (.of_eq rfl rfl rfl rfl rfl rfl)
  | tmrReload v => exact .after (microStep_finish h) (.of_eq rfl rfl rfl rfl rfl rfl)
  | tmrStart =>
    simp only [exec, execTmrStart] at h
    split at h
    · cases h
    · exact .after (microStep_finish h) (.of_eq rfl rfl rfl rfl rfl rfl)
  | tmrStop => exact .after (microStep_finish h) (.of_eq rfl rfl rfl rfl rfl rfl)
  | serWrite k b =>
    obtain ⟨_, -, h⟩ := withByte_next.1 (withLine_next.1 h).2
    exact microStep_writeLine (fun _ _ => microStep_finish) h
  | serRead k =>
    exact .after (microStep_finish (withLine_next.1 h).2) (.of_eq rfl rfl rfl rfl rfl rfl)
  | serTxdone k =>
    exact .after (microStep_finish (withLine_next.1 h).2) (.of_eq rfl rfl rfl rfl rfl rfl)
  | serClrtx k =>
    exact .after (microStep_finish (withLine_next.1 h).2) (.of_eq rfl rfl rfl rfl rfl rfl)
  | serRxrdy k =>
    exact .after (microStep_finish (withLine_next.1 h).2) (.of_eq rfl rfl rfl rfl rfl rfl)
  | serClrrx k =>
    exact .after (microStep_finish (withLine_next.1 h).2) (.of_eq rfl rfl rfl rfl rfl rfl)
  | serConfig k mode md baud dbl =>
    have h := (withLine_next.1 h).2
    split at h
    · cases h
    · exact .after (microStep_finish h) (.of_eq rfl rfl rfl rfl rfl rfl)
  | serSendb k b =>
    obtain ⟨_, -, h⟩ := withByte_next.1 (withLine_next.1 h).2
    exact microStep_writeLine (fun _ _ => microStep_setMicro) h
  | ledInit => exact .after (microStep_finish h) (.ledArm s)
  | ledAdvance => exact .after (microStep_finish h) (.ledTick s)
  | echoOnbyte b =>
    obtain ⟨v, -, h⟩ := withByte_next.1 h
    split at h
    · exact microStep_finish h
    · split at h
      · cases h
      · split at h
        · cases h
        · exact .after (microStep_setMicro h) (.of_eq rfl rfl rfl rfl rfl rfl)
  | echoReplay =>
    simp only [exec, execEchoReplay] at h
    split at h
    · cases h
    · exact .after (microStep_setMicro h) (.of_eq rfl rfl rfl rfl rfl rfl)

/-- A gate command writes `IEN` and ends. -/
theorem exec_writesGate {i : Instr} (hi : writesGate i) (h : exec i s = .next t) :
    ∃ e, t = ({ s with ien := e } : State).finish := by
  rcases hi with rfl | rfl | ⟨src, rfl⟩ | ⟨src, rfl⟩
  · cases h; exact ⟨_, rfl⟩
  · cases h; exact ⟨_, rfl⟩
  · cases (withSource_next.1 h).2; exact ⟨_, rfl⟩
  · cases (withSource_next.1 h).2; exact ⟨_, rfl⟩

/-- What the first micro-step of a command can be. -/
theorem exec_next {i : Instr} (h : exec i s = .next t) :
    leaveHandler s = .next t ∨
    (writesGate i ∧ ∃ e, t = ({ s with ien := e } : State).finish) ∨
    MicroStep s t := by
  by_cases hreti : i = .reti
  · subst hreti; exact .inl h
  by_cases hgate : writesGate i
  · exact .inr (.inl ⟨hgate, exec_writesGate hgate h⟩)
  · exact .inr (.inr (exec_microStep hreti hgate h))

/-- The later micro-steps of `ECHO.ONBYTE` (45_echo.md R252). -/
theorem microStep_onbyteNext {start : Byte} {len : Nat} {p : EchoPos}
    (h : onbyteNext start len p s = .next t) : MicroStep s t := by
  simp only [onbyteNext, echoAt] at h
  cases p with
  | e2 i => exact microStep_writeLine (fun _ _ => microStep_setMicro) h
  | e2Send i q =>
    exact microStep_sendNext (fun _ _ _ => microStep_setMicro) (fun _ _ => microStep_setMicro) h
  | e3 i => exact .after (microStep_setMicro h) (.of_eq rfl rfl rfl rfl rfl rfl)
  | e4 =>
    exact .after (microStep_saveStart (fun _ _ => microStep_setMicro) h)
      (.of_eq rfl rfl rfl rfl rfl rfl)
  | e4Save q =>
    exact microStep_saveNext (fun _ _ _ => microStep_setMicro) (fun _ _ => microStep_setMicro) h
  | e5 => exact .after (microStep_finish h) (.of_eq rfl rfl rfl rfl rfl rfl)

/-- The later micro-steps of `ECHO.REPLAY` (45_echo.md R256). -/
theorem microStep_replayNext {p : ReplayPos} (h : replayNext p s = .next t) : MicroStep s t := by
  cases p with
  | p1 =>
    exact microStep_loadStart (fun _ _ _ => microStep_setMicro) (fun _ _ => microStep_setMicro) h
  | p1Load q =>
    simp only [replayNext] at h
    exact microStep_loadNext (fun _ _ _ => microStep_setMicro) (fun _ _ => microStep_setMicro) h
  | p2 =>
    simp only [replayNext, replayAt] at h
    split at h <;> exact microStep_setMicro h
  | p3 j =>
    simp only [replayNext, replayByte] at h
    split at h
    · exact microStep_setMicro h
    · split at h
      · split at h
        · exact microStep_writeLine (fun _ _ => microStep_setMicro) h
        · exact microStep_setMicro h
      · cases h
  | p3Send j q =>
    simp only [replayNext] at h
    exact microStep_sendNext (fun _ _ _ => microStep_setMicro) (fun _ _ => microStep_setMicro) h
  | p4 => exact .after (microStep_finish h) (.of_eq rfl rfl rfl rfl rfl rfl)

/-- A later micro-step of a composite command keeps frames and gate. -/
theorem resume_microStep {m : Micro} (h : resume m s = .next t) : MicroStep s t := by
  cases m with
  | sendb k p =>
    simp only [resume] at h
    exact microStep_sendNext (fun _ _ _ => microStep_setMicro) (fun _ _ => microStep_finish) h
  | flErase => exact microStep_holdFlash h
  | flProg => exact microStep_holdFlash h
  | nvWrb =>
    simp only [resume, wrbM2] at h
    split at h
    · cases h; exact .holds (.refl _)
    · exact .after (microStep_finish h) (.of_eq rfl rfl rfl rfl rfl rfl)
  | nvSave n p =>
    simp only [resume] at h
    exact microStep_saveNext (fun _ _ _ => microStep_setMicro) (fun _ _ => microStep_finish) h
  | nvLoad p =>
    simp only [resume] at h
    exact microStep_loadNext (fun _ _ _ => microStep_setMicro) (fun _ _ => microStep_finish) h
  | onbyte start len p => exact microStep_onbyteNext h
  | replay p => exact microStep_replayNext h

/-- What a CPU step can be: a return from a handler, a gate command at `pc`, or a micro-step that
keeps frames and gate. -/
theorem cpuStep_cases (h : cpuStep s = .next t) :
    leaveHandler s = .next t ∨
    (∃ w i e, s.atWord w ∧ decode w = .ok i ∧ exec i s = .next t ∧ writesGate i ∧
      t = ({ s with ien := e } : State).finish) ∨
    MicroStep s t := by
  rcases cpuStep_next h with ⟨m, -, h⟩ | ⟨hm, w, i, hp, hw, hd, h⟩
  · exact .inr (.inr (resume_microStep h))
  · rcases exec_next h with hl | ⟨hi, e, he⟩ | hs
    · exact .inl hl
    · exact .inr (.inl ⟨w, i, e, ⟨hm, hp, hw⟩, hd, h, hi, he⟩)
    · exact .inr (.inr hs)

/-! ### The steps of the other agents -/

theorem KeepsControl.timerClock (s : State) : KeepsControl s (timerClock s) :=
  .of_eq rfl rfl rfl rfl rfl rfl

theorem KeepsControl.lineComplete (k : Line) (s : State) : KeepsControl s (lineComplete k s) := by
  unfold Machine.lineComplete
  split <;> exact .of_eq rfl rfl rfl rfl rfl rfl

theorem KeepsControl.lineDeliver (k : Line) (b : Byte) (received newest : Bool) (s : State) :
    KeepsControl s (lineDeliver k b received newest s) := by
  unfold Machine.lineDeliver
  split <;> exact .of_eq rfl rfl rfl rfl rfl rfl

/-- The completion leaves no operation in flight. -/
theorem KeepsControl.flashComplete (s : State) : KeepsControl s (flashComplete s) := by
  unfold Machine.flashComplete
  split
  · exact ⟨rfl, rfl, rfl, rfl, fun _ _ => engineSound_idle rfl rfl⟩
  · exact ⟨rfl, rfl, rfl, rfl, fun _ _ => engineSound_idle rfl rfl⟩
  · next hop => exact ⟨rfl, rfl, rfl, rfl, fun _ _ => engineSound_idle rfl hop⟩

theorem lineComplete_mem (k : Line) (s : State) : (lineComplete k s).mem = s.mem := by
  unfold lineComplete
  split <;> rfl

theorem lineDeliver_mem (k : Line) (b : Byte) (received newest : Bool) (s : State) :
    (lineDeliver k b received newest s).mem = s.mem := by
  unfold lineDeliver
  split <;> rfl

/-! ### Flash outside the region (20_memory.md R84-R86) -/

/-- No byte outside the region differs between the two memories, in content or freshness. -/
def sameOutside (p : Params) (m m' : Memory) : Prop :=
  ∀ x, p.inRegion x = false → m'.read x = m.read x ∧ m'.fresh x = m.fresh x

theorem sameOutside_refl (p : Params) (m : Memory) : sameOutside p m m := fun _ _ => ⟨rfl, rfl⟩

theorem sameOutside_of_eq {p : Params} {m m' : Memory} (h : m' = m) : sameOutside p m m' :=
  h ▸ sameOutside_refl p m'

/-- R85, R9: the region is a whole number of sectors, so the sector of an address in the region lies
in it. -/
theorem sector_inRegion {p : Params} (hv : p.valid = true) {a x : Nat} (ha : p.inRegion a = true)
    (hx : p.inRegion x = false) : x < p.sectorBase a ∨ p.sectorBase a + p.sectorSize ≤ x := by
  simp only [Params.valid, Bool.and_eq_true, decide_eq_true_eq] at hv
  have hmod : p.regionSize % p.sectorSize = 0 := by omega
  have hpos : 0 < p.sectorSize := by omega
  simp only [Params.inRegion, Bool.and_eq_true, decide_eq_true_eq] at ha
  simp only [Params.inRegion, Bool.and_eq_false_iff, decide_eq_false_iff_not] at hx
  obtain ⟨k, hk⟩ := Nat.dvd_of_mod_eq_zero hmod
  have hlt : (a - p.regionBase.toNat) / p.sectorSize < k := by
    rw [Nat.div_lt_iff_lt_mul hpos, Nat.mul_comm, ← hk]; omega
  have hle := Nat.mul_le_mul_right p.sectorSize hlt
  rw [Nat.succ_mul, Nat.mul_comm k, ← hk] at hle
  unfold Params.sectorBase
  omega

/-- An erase in flight has its whole sector in the region. -/
theorem engineSound_erase_outside {base x : Nat} (h : s.engineSound) (hv : s.cfg.valid = true)
    (hop : s.flOp = some (.erase base)) (hx : s.cfg.inRegion x = false) :
    x < base ∨ base + s.cfg.sectorSize ≤ x := by
  have ht := h.2
  rw [hop] at ht
  obtain ⟨a, ha, rfl⟩ := ht
  exact sector_inRegion hv ha hx

theorem engineSound_program_outside {a x : Nat} {v : Byte} (h : s.engineSound)
    (hop : s.flOp = some (.program a v)) (hx : s.cfg.inRegion x = false) : x ≠ a := by
  have ht := h.2
  rw [hop] at ht
  rintro rfl
  exact Bool.false_ne_true (hx.symm.trans ht)

theorem put_sameOutside {p : Params} {m : Memory} {a : Nat} {v : Byte}
    (h : ∀ x, p.inRegion x = false → x ≠ a) : sameOutside p m (m.put a v) :=
  fun x hx => ⟨Memory.read_put_other m v (h x hx), Memory.fresh_put_other m v (h x hx)⟩

/-- The operation that completes changes no byte outside the region. -/
theorem flashComplete_sameOutside (hv : s.cfg.valid = true) (he : s.engineSound) :
    sameOutside s.cfg s.mem (flashComplete s).mem := by
  unfold flashComplete
  split
  · next base hop =>
    intro x hx
    have ho := engineSound_erase_outside he hv hop hx
    exact ⟨Memory.read_erase_outside _ ho, Memory.fresh_erase_outside _ ho⟩
  · next a v hop => exact put_sameOutside fun x => engineSound_program_outside he hop
  · exact sameOutside_refl _ _

/-- The operation that a power loss interrupts changes no byte outside the region. -/
theorem flashAtLoss_sameOutside (hv : s.cfg.valid = true) (he : s.engineSound) :
    sameOutside s.cfg s.mem (flashAtLoss s).1 := by
  unfold flashAtLoss
  split
  · next base _ hop =>
    intro x hx
    have ho := engineSound_erase_outside he hv hop hx
    exact ⟨Memory.read_scramble_outside _ ho, Memory.fresh_scramble_outside _ ho⟩
  · next a v _ hop => exact put_sameOutside fun x => engineSound_program_outside he hop
  · exact sameOutside_refl _ _

theorem flashInRegion_of_sameOutside (hcfg : t.cfg = s.cfg) (hm : sameOutside s.cfg s.mem t.mem)
    (h : s.flashInRegion) : t.flashInRegion := by
  intro a ha
  rw [hcfg] at ha
  obtain ⟨hread, hfresh⟩ := hm a ha
  rw [hread, hfresh]
  exact h a ha

/-! ### Flash operations stay in the region -/

theorem cpuStep_engineSound (h : cpuStep s = .next t) (hv : s.cfg.valid = true)
    (he : s.engineSound) : t.engineSound := by
  rcases cpuStep_cases h with hl | ⟨_, _, _, -, -, -, -, rfl⟩ | hs
  · obtain ⟨_, _, -, rfl⟩ := leaveHandler_next.1 hl
    exact he
  · exact he
  · exact hs.engineSound hv he

/-- Whichever agent moves, the engine stays sound and flash outside the region as it was. -/
theorem takeMove_engineSound {m : Move} (h : takeMove m s = .next t) (hv : s.cfg.valid = true)
    (he : s.engineSound) : t.engineSound ∧ sameOutside s.cfg s.mem t.mem := by
  rcases takeMove_next h with h | ⟨_, -, -, h⟩ | ⟨-, -, rfl⟩ | ⟨_, -, -, -, rfl⟩ |
    ⟨_, _, _, _, -, -, rfl⟩ | ⟨-, -, rfl⟩ | ⟨-, rfl⟩
  · exact ⟨cpuStep_engineSound h hv he, sameOutside_of_eq (cpuStep_keeps h).mem⟩
  · obtain ⟨_, -, -, -, -, -, -, rfl⟩ := enterSource_next h
    exact ⟨he, sameOutside_refl _ _⟩
  · exact ⟨(KeepsControl.timerClock s).engine hv he, sameOutside_refl _ _⟩
  · exact ⟨(KeepsControl.lineComplete _ s).engine hv he, sameOutside_of_eq (lineComplete_mem _ s)⟩
  · exact ⟨(KeepsControl.lineDeliver _ _ _ _ s).engine hv he,
      sameOutside_of_eq (lineDeliver_mem _ _ _ _ s)⟩
  · exact ⟨(KeepsControl.flashComplete s).engine hv he, flashComplete_sameOutside hv he⟩
  · exact ⟨engineSound_idle rfl rfl, flashAtLoss_sameOutside hv he⟩

/-- Settles O28: a command issues an operation only on an address it has checked, or on the slot's
sector; an operation in flight changes only its own target, which lies in the region since the
region is a whole number of sectors. -/
theorem flashOperationsStayInTheRegion : Obligations.FlashOperationsStayInTheRegion := by
  intro s t hv he h
  have hcfg := (step_extendsRun h).cfg
  obtain ⟨-, -, hm | ⟨_, -, rfl⟩ | ⟨_, -, rfl⟩⟩ := step_next h
  · obtain ⟨hsound, houtside⟩ := takeMove_engineSound hm hv he
    exact ⟨hsound, flashInRegion_of_sameOutside hcfg houtside⟩
  · exact ⟨he, id⟩
  · exact ⟨he, id⟩

/-! ### Who writes `IEN` (10_state.md R36) -/

/-- A step of an agent that changes `IEN` is a CPU step at a gate command, or a power cycle. -/
theorem takeMove_writes_ien {m : Move} (h : takeMove m s = .next t) (hne : t.ien ≠ s.ien) :
    m = .power ∨
    ∃ w i, s.atWord w ∧ decode w = .ok i ∧ exec i s = .next t ∧ writesGate i := by
  rcases takeMove_next h with h | ⟨_, -, -, h⟩ | ⟨-, -, rfl⟩ | ⟨_, -, -, -, rfl⟩ |
    ⟨_, _, _, _, -, -, rfl⟩ | ⟨-, -, rfl⟩ | ⟨hm, -⟩
  · rcases cpuStep_cases h with hl | ⟨w, i, _, hw, hd, hx, hi, -⟩ | hs
    · obtain ⟨_, _, -, rfl⟩ := leaveHandler_next.1 hl
      exact absurd rfl hne
    · exact .inr ⟨w, i, hw, hd, hx, hi⟩
    · exact absurd hs.ien hne
  · obtain ⟨_, -, -, -, -, -, -, rfl⟩ := enterSource_next h
    exact absurd rfl hne
  · exact absurd (KeepsControl.timerClock s).ien hne
  · exact absurd (KeepsControl.lineComplete _ s).ien hne
  · exact absurd (KeepsControl.lineDeliver _ _ _ _ s).ien hne
  · exact absurd (KeepsControl.flashComplete s).ien hne
  · exact .inl hm

/-- Settles O18: interrupt entry, return and the peripheral agents leave `IEN` alone, and so does
every micro-step but the first one of a gate command. -/
theorem onlyGateCommandsWriteIen : Obligations.OnlyGateCommandsWriteIen := by
  intro s t h hne
  obtain ⟨-, -, hm | ⟨_, -, rfl⟩ | ⟨_, -, rfl⟩⟩ := step_next h
  · exact takeMove_writes_ien hm hne
  · exact absurd rfl hne
  · exact absurd rfl hne

/-! ### Fetching past the ROM (10_state.md R35, 60_exceptions.md R301) -/

theorem cpuStep_past_rom (hm : s.ctx.micro = none)
    (h : s.ctx.past = true ∨ s.rom.length ≤ s.ctx.pc.toNat) :
    cpuStep s = .fault (.pcOutOfRom s.info s.ctx.pc) := by
  simp only [cpuStep, hm, withFetch]
  rcases h with hp | hlen
  · rw [if_pos hp]
  · rw [List.getElem?_eq_none hlen]
    split <;> rfl

theorem step_cpu {rest : List Move} (hr : s.running = true) (hp : s.plan = .cpu :: rest) :
    step s = recordStop { s with plan := rest } (cpuStep { s with plan := rest }) := by
  simp only [State.running, Bool.and_eq_true, Option.isNone_iff_eq_none] at hr
  exact step_planned hr.1 hr.2 hp

theorem step_past_rom {rest : List Move} (hr : s.running = true) (hp : s.plan = .cpu :: rest)
    (hm : s.ctx.micro = none) (h : s.ctx.past = true ∨ s.rom.length ≤ s.ctx.pc.toNat) :
    step s = .next { s with plan := rest, fault := some (.pcOutOfRom s.info s.ctx.pc) } := by
  rw [step_cpu hr hp, cpuStep_past_rom (s := { s with plan := rest }) hm h]
  rfl

/-- A CPU step that moves the pointer without leaving the frame ends the command. -/
theorem cpuStep_nextCommand (h : cpuStep s = .next t)
    (hlen : t.handlers.length = s.handlers.length) (hpc : t.ctx.pc ≠ s.ctx.pc) :
    nextCommand s t ∧ t.kind = s.kind := by
  rcases cpuStep_cases h with hl | ⟨_, _, e, -, -, -, -, rfl⟩ | hs
  · obtain ⟨_, _, hcons, rfl⟩ := leaveHandler_next.1 hl
    rw [hcons, List.length_cons] at hlen
    exact absurd hlen (Nat.ne_of_lt (Nat.lt_succ_self _))
  · exact ⟨nextCommand_finish rfl, State.finish_kind _⟩
  · exact hs.nextCommand_of_pc hpc

/-- A running state's CPU step that moves the pointer without leaving the frame raises no stop: it
ends the command, and the machine still runs. -/
theorem step_nextCommand {rest : List Move} (hr : s.running = true) (hp : s.plan = .cpu :: rest)
    (h : step s = .next t) (hlen : t.handlers.length = s.handlers.length)
    (hpc : t.ctx.pc ≠ s.ctx.pc) :
    nextCommand s t ∧ t.kind = s.kind ∧ t.running = true ∧ t.plan = rest := by
  rw [step_cpu hr hp] at h
  cases hc : cpuStep { s with plan := rest } with
  | next v =>
    rw [hc] at h
    cases h
    obtain ⟨hnext, hkind⟩ := cpuStep_nextCommand hc hlen hpc
    have hk := cpuStep_keeps hc
    refine ⟨hnext, hkind, ?_, hk.plan⟩
    unfold State.running
    rwa [hk.fault, hk.refused]
  | fault f => rw [hc] at h; cases h; exact absurd rfl hpc
  | refused r => rw [hc] at h; cases h; exact absurd rfl hpc

/-- Settles O9: a fetch faults where `past` is set or the ROM has no word, and the end of a
command at 0xFFFF sets `past`. -/
theorem fetchPastTheRomFaults : Obligations.FetchPastTheRomFaults := by
  refine ⟨fun s rest hr hp hm hlen => step_past_rom hr hp hm (.inr hlen), ?_⟩
  intro s t rest hr hp hpc h hlen hne
  obtain ⟨hnext, hkind, hrun, hplan⟩ := step_nextCommand hr hp h hlen (hpc ▸ hne)
  have hctx : t.ctx = { pc := 0x0000, past := true, micro := none } := by
    rw [hnext, hpc]; simp
  have hinfo : t.info = { kind := s.kind, pc := 0x0000 } := by
    unfold State.info; rw [hkind, hctx]
  rw [step_past_rom hrun hplan (by rw [hctx]) (.inl (by rw [hctx])), hinfo, hctx]

/-! ### The launch (10_state.md R47, 70_reset_and_hazards.md R340) -/

/-- Settles O57: each element is read off the reset state, around the parameters, ROM and flash. -/
theorem launchHoldsTheResetValues : Obligations.LaunchHoldsTheResetValues := by
  rintro cfg rom mem s rfl
  have hline : ∀ k, (State.launch cfg rom mem).line k = lineReset := fun k => by cases k <;> rfl
  have hlit : (State.launch cfg rom mem).litRem = litArm cfg.ledVariant := rfl
  refine ⟨rfl, rfl, rfl, rfl, rfl, rfl, rfl, hline, rfl, rfl, rfl, rfl, rfl, rfl, fun hfix => ?_,
    fun hbreathe => ?_, rfl, rfl, fun i hi => ?_, rfl, rfl, rfl, rfl, rfl, rfl⟩
  · rw [hlit, hfix]; rfl
  · rw [hlit, hbreathe]; rfl
  · have hundef : (Vector.replicate 27 (none : Option Byte))[i]? = some none :=
      Vector.getElem?_replicate_of_lt hi
    exact ⟨hundef, hundef⟩

end Sys2Proof.Machine

namespace Sys2Proof.Machine

/-! ### The checks of the flash commands (20_memory.md R86, 60_exceptions.md R301, R307) -/

section
variable {s : State}

theorem withByte_undef {c : Byte → Result} (h : s.dl = none) :
    withByte .dl s c = .fault (.dlUndef s.info) := by
  unfold withByte; rw [h]

/-- A byte operand that is an immediate, or `DL` when it holds a value, passes its check. -/
theorem withByte_passes {b : ByteOp} (h : b = .dl → s.dl ≠ none) :
    ∃ v, ∀ c, withByte b s c = c v := by
  cases b with
  | imm v => exact ⟨v, fun _ => rfl⟩
  | dl =>
    obtain ⟨v, hv⟩ := Option.ne_none_iff_exists'.1 (h rfl)
    exact ⟨v, fun c => by unfold withByte; rw [hv]⟩

theorem withCursor_undef {c : Half → Result} (h : s.addr = none) :
    withCursor s c = .fault (.cursorUndef s.info) := by
  unfold withCursor; rw [h]

theorem withCursor_outside {c : Half → Result} {a : Half} (ha : s.addr = some a)
    (hr : s.cfg.inRegion a.toNat = false) : withCursor s c = .fault (.flashAddr s.info a) := by
  simp [withCursor, ha, hr]

theorem withCursor_passes {c : Half → Result} {a : Half} (ha : s.addr = some a)
    (hr : s.cfg.inRegion a.toNat = true) : withCursor s c = c a := by
  simp [withCursor, ha, hr]

theorem flashIdle_busy {r : Result} (h : s.flBusy = true) :
    flashIdle s r = .fault (.flashBusy s.info s.flOp) := if_pos h

theorem programM1_undef {m : Micro} (h : s.dl = none) :
    programM1 .dl m s = .fault (.dlUndef s.info) := withByte_undef h

/-- With its operand readable, a program command is its effect `k` behind the cursor's checks and then
the engine's. -/
theorem programM1_checked {b : ByteOp} {m : Micro} (h : b = .dl → s.dl ≠ none) :
    ∃ k : Half → Result, programM1 b m s = withCursor s fun a => flashIdle s (k a) := by
  obtain ⟨v, hv⟩ := withByte_passes h
  exact ⟨_, hv _⟩

/-- The five commands that access flash at the cursor have one shape: after the operand's check, an
effect `k` behind the cursor's checks and then the engine's. -/
theorem exec_checked {b : ByteOp} {i : Instr}
    (hi : i = .flErase ∨ i = .flRead ∨ i = .nvRdb ∨ i = .flProg b ∨ i = .nvWrb b)
    (hb : (i = .flProg b ∨ i = .nvWrb b) → b = .dl → s.dl ≠ none) :
    ∃ k : Half → Result, exec i s = withCursor s fun a => flashIdle s (k a) := by
  rcases hi with rfl | rfl | rfl | rfl | rfl
  · exact ⟨_, rfl⟩
  · exact ⟨_, rfl⟩
  · exact ⟨_, rfl⟩
  · exact programM1_checked (hb (.inl rfl))
  · exact programM1_checked (hb (.inr rfl))

end

/-- Settles O21: the operand's check comes before the shape that `exec_checked` gives all five
commands, in which the cursor's checks come before the engine's. -/
theorem flashChecksReportTheFirstFailure : Obligations.FlashChecksReportTheFirstFailure := by
  intro s b i hi
  refine ⟨?_, fun hb => ?_⟩
  · rintro (rfl | rfl) rfl hdl
    · exact programM1_undef hdl
    · exact programM1_undef hdl
  · obtain ⟨k, hk⟩ := exec_checked hi hb
    rw [hk]
    refine ⟨withCursor_undef, fun a => withCursor_outside, fun a ha hr hbusy => ?_⟩
    rw [withCursor_passes ha hr, flashIdle_busy hbusy]

/-! ### Who changes flash (20_memory.md R88, R89, R97) -/

section
variable {s t : State}

/-- A power loss with no operation in flight spares the flash array. -/
theorem flashAtLoss_idle (h : s.flBusy = false) : (flashAtLoss s).1 = s.mem := by
  unfold flashAtLoss; rw [h]

/-- A step of an agent that changes flash is FlashEngine's or Power's, with an operation in flight. -/
theorem takeMove_writes_mem {m : Move} (h : takeMove m s = .next t) (hne : t.mem ≠ s.mem) :
    (m = .flash ∧ s.flBusy = true) ∨ (m = .power ∧ s.flBusy = true) := by
  rcases takeMove_next h with h | ⟨_, -, -, h⟩ | ⟨-, -, rfl⟩ | ⟨_, -, -, -, rfl⟩ |
    ⟨_, _, _, _, -, -, rfl⟩ | ⟨hm, hbusy, -⟩ | ⟨hm, rfl⟩
  · exact absurd (cpuStep_keeps h).mem hne
  · obtain ⟨_, -, -, -, -, -, -, rfl⟩ := enterSource_next h
    exact absurd rfl hne
  · exact absurd rfl hne
  · exact absurd (lineComplete_mem _ s) hne
  · exact absurd (lineDeliver_mem _ _ _ _ s) hne
  · exact .inl ⟨hm, hbusy⟩
  · exact .inr ⟨hm, Bool.eq_true_of_not_eq_false fun hidle => hne (flashAtLoss_idle hidle)⟩

end

/-- Settles O26: no CPU micro-step, interrupt entry, timer event or line step writes flash, nor does
recording a stop; the engine steps only when busy, and a power loss spares flash when it is idle. -/
theorem flashChangesOnlyByEngineOrPower : Obligations.FlashChangesOnlyByEngineOrPower := by
  intro s t h hne
  obtain ⟨-, -, hm | ⟨_, -, rfl⟩ | ⟨_, -, rfl⟩⟩ := step_next h
  · exact takeMove_writes_mem (s := s.popMove) hm hne
  · exact absurd rfl hne
  · exact absurd rfl hne

end Sys2Proof.Machine

namespace Sys2Proof

/-! ### The three fields of a word (30_encoding.md R110) -/

section
variable (u o : BitVec 4) (x : Half) (w : CmdWord)

@[simp] theorem unitOf_wordOf : unitOf (wordOf u o x) = u :=
  (BitVec.extractLsb'_append_eq_of_le (by decide)).trans BitVec.extractLsb'_append_eq_left

@[simp] theorem opOf_wordOf : opOf (wordOf u o x) = o :=
  (BitVec.extractLsb'_append_eq_of_le (by decide)).trans BitVec.extractLsb'_append_eq_right

@[simp] theorem operandOf_wordOf : operandOf (wordOf u o x) = x :=
  BitVec.extractLsb'_append_eq_right

theorem wordOf_fields : wordOf (unitOf w) (opOf w) (operandOf w) = w := by
  have hhigh : unitOf w ++ opOf w = w.extractLsb' 16 8 :=
    BitVec.extractLsb'_append_extractLsb'_eq_extractLsb' rfl
  have hall : w.extractLsb' 16 8 ++ operandOf w = w.extractLsb' 0 24 :=
    BitVec.extractLsb'_append_extractLsb'_eq_extractLsb' rfl
  rw [wordOf, hhigh]
  exact hall.trans BitVec.extractLsb'_eq_self

theorem unitOf_toNat : (unitOf w).toNat = w.toNat / 0x100000 := by
  rw [unitOf, BitVec.extractLsb'_toNat, Nat.shiftRight_eq_div_pow]
  omega

theorem opOf_toNat : (opOf w).toNat = w.toNat / 0x10000 % 0x10 := by
  rw [opOf, BitVec.extractLsb'_toNat, Nat.shiftRight_eq_div_pow]

theorem operandOf_toNat : (operandOf w).toNat = w.toNat % 0x10000 := by
  rw [operandOf, BitVec.extractLsb'_toNat, Nat.shiftRight_zero]

end

/-! ### Operands whose bits above the lowest `k` are reserved -/

section
variable {m k : Nat}

theorem reserved_eq_zero_iff {x : BitVec (m + k)} :
    x.extractLsb' k m = 0 ↔ x.toNat < 2 ^ k := by
  have hx : x.toNat / 2 ^ k < 2 ^ m := by
    rw [Nat.div_lt_iff_lt_mul (Nat.two_pow_pos k), ← Nat.pow_add]
    exact x.isLt
  rw [← BitVec.toNat_inj, BitVec.extractLsb'_toNat, Nat.shiftRight_eq_div_pow,
    Nat.mod_eq_of_lt hx]
  simp

theorem toNat_zero_append (y : BitVec k) : (0#m ++ y).toNat = y.toNat := by simp

theorem exists_zero_append {x : BitVec (m + k)} (h : x.toNat < 2 ^ k) :
    ∃ y : BitVec k, x = 0#m ++ y :=
  ⟨x.setWidth k, BitVec.eq_of_toNat_eq (by simp [Nat.mod_eq_of_lt h])⟩

end

/-! ### The operand formats (30_encoding.md R113)

For each format: the decoder undoes the encoder, every operand that the format admits is an
encoding, and the decoder rejects every other. -/

section
variable {x : Half} {i : Instr}

theorem decodeZ_zero : decodeZ 0 i = .ok i := if_pos rfl

theorem decodeZ_error (h : x ≠ 0) : decodeZ x i = .error .reservedBits := if_neg h

theorem decodeB_encodeB (b : ByteOp) (mk : ByteOp → Instr) :
    decodeB (encodeB b) mk = .ok (mk b) := by
  cases b with
  | imm v =>
    have hreserved : (0#8 ++ v : Half).extractLsb' 9 7 = 0 :=
      reserved_eq_zero_iff.2 (by rw [toNat_zero_append]; omega)
    have hbit : (0#8 ++ v : Half).getLsbD 8 = false := BitVec.getLsbD_append ..
    have himm : (0#8 ++ v : Half).extractLsb' 0 8 = v := BitVec.extractLsb'_append_eq_right
    rw [decodeB, encodeB, if_neg (not_not.2 hreserved), if_neg (Bool.not_eq_true _ ▸ hbit), himm]
  | dl => rfl

theorem exists_encodeB (h : x.toNat ≤ 0x100) : ∃ b, x = encodeB b := by
  rcases Nat.lt_or_eq_of_le h with hlt | heq
  · obtain ⟨v, rfl⟩ := exists_zero_append (m := 8) (k := 8) hlt
    exact ⟨.imm v, rfl⟩
  · exact ⟨.dl, BitVec.eq_of_toNat_eq heq⟩

theorem decodeB_error {mk : ByteOp → Instr} (h : 0x100 < x.toNat) :
    ∃ e, decodeB x mk = .error e := by
  by_cases hlt : x.toNat < 2 ^ 9
  · have hreserved : x.extractLsb' 9 7 = 0 := reserved_eq_zero_iff.2 hlt
    have hbit : x.getLsbD 8 = true := by
      rw [← BitVec.testBit_toNat, Nat.testBit_eq_decide_div_mod_eq]
      exact decide_eq_true (by omega)
    have himm : x.extractLsb' 0 8 ≠ 0 := fun h0 => by
      have hmod : x.toNat % 2 ^ 8 = 0 := congrArg BitVec.toNat h0
      omega
    exact ⟨.latchWithImmediate, by
      rw [decodeB, if_neg (not_not.2 hreserved), if_pos hbit, if_neg himm]⟩
  · exact ⟨.reservedBits, if_pos (mt reserved_eq_zero_iff.1 hlt)⟩

theorem decodeN5_append (n : BitVec 5) (mk : BitVec 5 → Instr) :
    decodeN5 (0#11 ++ n) mk = if 26 < n.toNat then .error .lengthTooLong else .ok (mk n) := by
  have hreserved : (0#11 ++ n : Half).extractLsb' 5 11 = 0 := BitVec.extractLsb'_append_eq_left
  have hlen : (0#11 ++ n : Half).extractLsb' 0 5 = n := BitVec.extractLsb'_append_eq_right
  rw [decodeN5, if_neg (not_not.2 hreserved), hlen]

theorem exists_length_append (h : x.toNat ≤ 26) : ∃ n : BitVec 5, n.toNat ≤ 26 ∧ x = 0#11 ++ n := by
  obtain ⟨n, rfl⟩ := exists_zero_append (m := 11) (k := 5) (x := x) (by omega)
  exact ⟨n, toNat_zero_append n ▸ h, rfl⟩

theorem decodeN5_error {mk : BitVec 5 → Instr} (h : 26 < x.toNat) :
    ∃ e, decodeN5 x mk = .error e := by
  by_cases hlt : x.toNat < 2 ^ 5
  · obtain ⟨n, rfl⟩ := exists_zero_append (m := 11) (k := 5) hlt
    have hn : 26 < n.toNat := toNat_zero_append n ▸ h
    exact ⟨_, (decodeN5_append n mk).trans (if_pos hn)⟩
  · exact ⟨_, if_pos (mt reserved_eq_zero_iff.1 hlt)⟩

theorem decodeSrc_encodeSrc (src : Source) (mk : Source → Instr) :
    decodeSrc (encodeSrc src) mk = .ok (mk src) := by
  rcases src with _ | _ | _ <;> rfl

theorem exists_encodeSrc (h : x.toNat ≤ 2) : ∃ src, x = encodeSrc src := by
  match hx : x.toNat, h with
  | 0, _ => exact ⟨.tick, BitVec.eq_of_toNat_eq hx⟩
  | 1, _ => exact ⟨.rx .l0, BitVec.eq_of_toNat_eq hx⟩
  | 2, _ => exact ⟨.rx .l1, BitVec.eq_of_toNat_eq hx⟩

theorem decodeSrc_error {mk : Source → Instr} (h : 2 < x.toNat) :
    ∃ e, decodeSrc x mk = .error e := by
  by_cases hlt : x.toNat < 2 ^ 2
  · have hx : x = 3 := BitVec.eq_of_toNat_eq (show x.toNat = 3 by omega)
    exact ⟨.noSuchSource, by rw [hx]; rfl⟩
  · exact ⟨_, if_pos (mt reserved_eq_zero_iff.1 hlt)⟩

theorem decodeTcfg_encodeTcfg (mode : BitVec 2) (gate src : Bool) :
    decodeTcfg (encodeTcfg mode gate src) = .ok (.tmrConfig mode gate src) := by
  revert mode gate src; decide

theorem exists_encodeTcfg (h : x.toNat < 0x10) : ∃ mode gate src, x = encodeTcfg mode gate src := by
  obtain ⟨y, rfl⟩ := exists_zero_append (m := 12) (k := 4) h
  exact ⟨y.extractLsb' 0 2, y.getLsbD 2, y.getLsbD 3, by revert y; decide⟩

theorem decodeTcfg_error (h : 0x10 ≤ x.toNat) : decodeTcfg x = .error .reservedBits :=
  if_pos (mt reserved_eq_zero_iff.1 h.not_gt)

theorem decodeScfg_encodeScfg (k : Line) (mode : BitVec 2) (md : Bool) (baud : BitVec 2)
    (dbl : Bool) :
    decodeScfg k (encodeScfg mode md baud dbl) = .ok (.serConfig k mode md baud dbl) := by
  revert mode md baud dbl; cases k <;> decide

theorem exists_encodeScfg (h : x.toNat < 0x40) :
    ∃ mode md baud dbl, x = encodeScfg mode md baud dbl := by
  obtain ⟨y, rfl⟩ := exists_zero_append (m := 10) (k := 6) h
  exact ⟨y.extractLsb' 0 2, y.getLsbD 2, y.extractLsb' 3 2, y.getLsbD 5, by revert y; decide⟩

theorem decodeScfg_error (k : Line) (h : 0x40 ≤ x.toNat) :
    decodeScfg k x = .error .reservedBits :=
  if_pos (mt reserved_eq_zero_iff.1 h.not_gt)

end

/-! ### Encoded and listed words -/

/-- Settles O1: the fields of an encoded word are the unit, operation and operand it was built
from, and each format's decoder undoes its encoder. -/
theorem decodeOfEncodeIsTheCommand : Obligations.DecodeOfEncodeIsTheCommand := by
  intro i hi
  cases i with
  | nvSave n =>
    have hn : ¬ 26 < n.toNat := by simpa [Instr.wellFormed] using hi
    simp [decode, encode, decodeNv, decodeN5_append, hn]
  | flSetaddr a => simp [decode, encode, decodeFl]
  | tmrReload v => simp [decode, encode, decodeTmr]
  | flProg b | nvWrb b | echoOnbyte b =>
    simp [decode, encode, decodeFl, decodeNv, decodeEcho, decodeB_encodeB]
  | serWrite k b | serSendb k b =>
    cases k <;> simp [decode, encode, serUnit, decodeSer, decodeB_encodeB]
  | tmrConfig mode gate src => simp [decode, encode, decodeTmr, decodeTcfg_encodeTcfg]
  | serConfig k mode md baud dbl =>
    cases k <;> simp [decode, encode, serUnit, decodeSer, decodeScfg_encodeScfg]
  | intEnsrc src | intDissrc src => simp [decode, encode, decodeInt, decodeSrc_encodeSrc]
  | serRead k | serTxdone k | serClrtx k | serRxrdy k | serClrrx k => cases k <;> rfl
  | nop | idle | reti | flErase | flRead | nvRdb | nvLoad | tmrStart | tmrStop | intEnall
  | intDisall | ledInit | ledAdvance | echoReplay => rfl

/-- Settles O4: the decoder evaluates each listed word. -/
theorem listedWordsDecodeAsTheSpecSays : Obligations.ListedWordsDecodeAsTheSpecSays := by
  unfold Obligations.ListedWordsDecodeAsTheSpecSays
  decide

/-! ### The rows (30_encoding.md R112) -/

/-- What a decoder may answer for the word of unit `u`, operation `o` and operand `x`, given the
format of its row, if it has one. -/
inductive RowReads (u o : Nat) (x : Half) : Option Format → Except Illegal Instr → Prop where
  | noRow (e : Illegal) : RowReads u o x none (.error e)
  | rejected {f : Format} (e : Illegal) : f.admits x.toNat = false →
      RowReads u o x (some f) (.error e)
  | accepted {f : Format} {i : Instr} : f.admits x.toNat = true → i.wellFormed = true →
      encode i = wordOf (.ofNat 4 u) (.ofNat 4 o) x → RowReads u o x (some f) (.ok i)

section
variable {u o : Nat} {x : Half}

theorem RowReads.of_ok {row : Option Format} {i : Instr} (h : RowReads u o x row (.ok i)) :
    i.wellFormed = true ∧ encode i = wordOf (.ofNat 4 u) (.ofNat 4 o) x := by
  cases h with
  | accepted _ hwf henc => exact ⟨hwf, henc⟩

theorem decodeZ_reads {i : Instr} (hwf : i.wellFormed = true)
    (henc : encode i = wordOf (.ofNat 4 u) (.ofNat 4 o) 0) :
    RowReads u o x (some .z) (decodeZ x i) := by
  by_cases h : x = 0
  · subst h
    rw [decodeZ_zero]
    exact .accepted rfl hwf henc
  · rw [decodeZ_error h]
    exact .rejected _ (decide_eq_false fun h0 => h (BitVec.eq_of_toNat_eq h0))

theorem decodeB_reads {mk : ByteOp → Instr} (hwf : ∀ b, (mk b).wellFormed = true)
    (henc : ∀ b, encode (mk b) = wordOf (.ofNat 4 u) (.ofNat 4 o) (encodeB b)) :
    RowReads u o x (some .b) (decodeB x mk) := by
  by_cases h : x.toNat ≤ 0x100
  · obtain ⟨b, rfl⟩ := exists_encodeB h
    rw [decodeB_encodeB]
    exact .accepted (decide_eq_true h) (hwf b) (henc b)
  · obtain ⟨e, he⟩ := decodeB_error (mk := mk) (Nat.lt_of_not_le h)
    rw [he]
    exact .rejected e (decide_eq_false h)

theorem decodeN5_reads {mk : BitVec 5 → Instr} (hwf : ∀ n, n.toNat ≤ 26 → (mk n).wellFormed = true)
    (henc : ∀ n, encode (mk n) = wordOf (.ofNat 4 u) (.ofNat 4 o) (0#11 ++ n)) :
    RowReads u o x (some .n5) (decodeN5 x mk) := by
  by_cases h : x.toNat ≤ 26
  · obtain ⟨n, hn, rfl⟩ := exists_length_append h
    rw [decodeN5_append, if_neg hn.not_gt]
    exact .accepted (decide_eq_true h) (hwf n hn) (henc n)
  · obtain ⟨e, he⟩ := decodeN5_error (mk := mk) (Nat.lt_of_not_le h)
    rw [he]
    exact .rejected e (decide_eq_false h)

theorem decodeSrc_reads {mk : Source → Instr} (hwf : ∀ src, (mk src).wellFormed = true)
    (henc : ∀ src, encode (mk src) = wordOf (.ofNat 4 u) (.ofNat 4 o) (encodeSrc src)) :
    RowReads u o x (some .src) (decodeSrc x mk) := by
  by_cases h : x.toNat ≤ 2
  · obtain ⟨src, rfl⟩ := exists_encodeSrc h
    rw [decodeSrc_encodeSrc]
    exact .accepted (decide_eq_true h) (hwf src) (henc src)
  · obtain ⟨e, he⟩ := decodeSrc_error (mk := mk) (Nat.lt_of_not_le h)
    rw [he]
    exact .rejected e (decide_eq_false h)

theorem decodeTcfg_reads : RowReads 3 1 x (some .tcfg) (decodeTcfg x) := by
  by_cases h : x.toNat < 0x10
  · obtain ⟨mode, gate, src, rfl⟩ := exists_encodeTcfg h
    rw [decodeTcfg_encodeTcfg]
    exact .accepted (decide_eq_true h) rfl rfl
  · rw [decodeTcfg_error (Nat.le_of_not_lt h)]
    exact .rejected _ (decide_eq_false h)

theorem decodeScfg_reads {k : Line} :
    RowReads (serUnit k).toNat 7 x (some .scfg) (decodeScfg k x) := by
  by_cases h : x.toNat < 0x40
  · obtain ⟨mode, md, baud, dbl, rfl⟩ := exists_encodeScfg h
    rw [decodeScfg_encodeScfg]
    exact .accepted (decide_eq_true h) rfl (by cases k <;> rfl)
  · rw [decodeScfg_error k (Nat.le_of_not_lt h)]
    exact .rejected _ (decide_eq_false h)

theorem decodeCtl_reads : RowReads 0 o x (rowFormat 0 o) (decodeCtl o x) :=
  match o with
  | 0 | 1 | 2 => decodeZ_reads rfl rfl
  | _ + 3 => .noRow _

theorem decodeFl_reads : RowReads 1 o x (rowFormat 1 o) (decodeFl o x) :=
  match o with
  | 1 => .accepted rfl rfl rfl
  | 2 | 4 => decodeZ_reads rfl rfl
  | 3 => decodeB_reads (fun _ => rfl) fun _ => rfl
  | 0 | _ + 5 => .noRow _

theorem decodeNv_reads : RowReads 2 o x (rowFormat 2 o) (decodeNv o x) :=
  match o with
  | 3 => decodeB_reads (fun _ => rfl) fun _ => rfl
  | 4 | 6 => decodeZ_reads rfl rfl
  | 5 => decodeN5_reads (fun _ => decide_eq_true) fun _ => rfl
  | 0 | 1 | 2 | _ + 7 => .noRow _

theorem decodeTmr_reads : RowReads 3 o x (rowFormat 3 o) (decodeTmr o x) :=
  match o with
  | 1 => decodeTcfg_reads
  | 2 => .accepted rfl rfl rfl
  | 3 | 4 => decodeZ_reads rfl rfl
  | 0 | _ + 5 => .noRow _

theorem decodeSer_reads (k : Line) :
    RowReads (serUnit k).toNat o x (rowFormat (serUnit k).toNat o) (decodeSer k o x) :=
  match k, o with
  | .l0, 1 | .l0, 8 | .l1, 1 | .l1, 8 => decodeB_reads (fun _ => rfl) fun _ => rfl
  | .l0, 2 | .l0, 3 | .l0, 4 | .l0, 5 | .l0, 6 => decodeZ_reads rfl rfl
  | .l1, 2 | .l1, 3 | .l1, 4 | .l1, 5 | .l1, 6 => decodeZ_reads rfl rfl
  | .l0, 7 | .l1, 7 => decodeScfg_reads
  | .l0, 0 | .l0, _ + 9 | .l1, 0 | .l1, _ + 9 => .noRow _

theorem decodeInt_reads : RowReads 6 o x (rowFormat 6 o) (decodeInt o x) :=
  match o with
  | 1 | 2 => decodeZ_reads rfl rfl
  | 3 | 4 => decodeSrc_reads (fun _ => rfl) fun _ => rfl
  | 0 | _ + 5 => .noRow _

theorem decodeLed_reads : RowReads 7 o x (rowFormat 7 o) (decodeLed o x) :=
  match o with
  | 1 | 2 => decodeZ_reads rfl rfl
  | 0 | _ + 3 => .noRow _

theorem decodeEcho_reads : RowReads 8 o x (rowFormat 8 o) (decodeEcho o x) :=
  match o with
  | 1 => decodeB_reads (fun _ => rfl) fun _ => rfl
  | 2 => decodeZ_reads rfl rfl
  | 0 | _ + 3 => .noRow _

end

/-- The decoder reads every word by its row of R112. -/
theorem decode_reads (w : CmdWord) :
    RowReads (unitOf w).toNat (opOf w).toNat (operandOf w)
      (rowFormat (unitOf w).toNat (opOf w).toNat) (decode w) := by
  unfold decode
  generalize (unitOf w).toNat = u
  match u with
  | 0 => exact decodeCtl_reads
  | 1 => exact decodeFl_reads
  | 2 => exact decodeNv_reads
  | 3 => exact decodeTmr_reads
  | 4 => exact decodeSer_reads .l0
  | 5 => exact decodeSer_reads .l1
  | 6 => exact decodeInt_reads
  | 7 => exact decodeLed_reads
  | 8 => exact decodeEcho_reads
  | _ + 9 => exact .noRow _

/-- Settles O2: a row answers a command only by accepting the word as that command's encoding. -/
theorem encodeOfDecodeIsTheWord : Obligations.EncodeOfDecodeIsTheWord := by
  intro w i hd
  obtain ⟨hwf, henc⟩ := (hd ▸ decode_reads w).of_ok
  exact ⟨hwf, by simpa [wordOf_fields] using henc⟩

theorem decode_error_iff (w : CmdWord) : (∃ e, decode w = .error e) ↔ illegalWord w = true := by
  have h := decode_reads w
  unfold illegalWord
  rw [← unitOf_toNat, ← opOf_toNat, ← operandOf_toNat]
  revert h
  generalize decode w = r
  generalize rowFormat (unitOf w).toNat (opOf w).toNat = f
  rintro (e | ⟨e, hf⟩ | ⟨hf, -, -⟩)
  · simp
  · simp [hf]
  · simp [hf]

end Sys2Proof

namespace Sys2Proof.Machine

/-! ### Refused words and absent lines (30_encoding.md R115, R117; 60_exceptions.md R302) -/

section
variable {s : State}

/-- Fetching an ILLEGAL word is a refusal (30_encoding.md R117). -/
theorem cpuStep_illegal {w : CmdWord} {e : Illegal} (hw : s.atWord w) (hd : decode w = .error e) :
    cpuStep s = .refused (.illegalEncoding s.info) := by
  obtain ⟨hmicro, hpast, hrom⟩ := hw
  simp [cpuStep, withFetch, hmicro, hpast, hrom, hd]

theorem withLine_absent {k : Line} {r : Result} (h : s.cfg.hasLine k = false) :
    withLine k s r = .refused (.noSuchLine s.info) := by
  simp [withLine, h]

end

/-- Settles O3: the decoder rejects a word exactly where its row is missing or does not admit the
operand, and the fetch of a rejected word is a refusal. -/
theorem illegalWordsAreRefused : Obligations.IllegalWordsAreRefused := by
  refine ⟨decode_error_iff, fun s rest w hr hp hw hill => ?_⟩
  obtain ⟨e, hd⟩ := (decode_error_iff w).2 hill
  rw [step_cpu hr hp, cpuStep_illegal (s := { s with plan := rest }) hw hd]
  rfl

/-- Settles O40: each serial command checks its line first. -/
theorem commandsOfAnAbsentLineAreRefused : Obligations.CommandsOfAnAbsentLineAreRefused := by
  intro s b mode md baud dbl i hone hi
  have habsent : s.cfg.hasLine .l1 = false := by simp [Params.hasLine, hone]
  rcases hi with rfl | rfl | rfl | rfl | rfl | rfl | rfl | rfl <;> exact withLine_absent habsent

end Sys2Proof.Machine

namespace Sys2Proof.Machine

/-! ### The canonical form of flash, and that a fresh byte reads 0xFF (41_flash_store.md R142) -/

/-- A fresh byte of the memory reads 0xFF: `State.freshErased`, said of the memory alone. -/
def Memory.freshErased (m : Memory) : Prop := ∀ a, m.fresh a = true → m.read a = sentinel

/-- The change from `m` to `m'` keeps the canonical form, and that a fresh byte reads 0xFF. -/
structure KeepsForm (m m' : Memory) : Prop where
  wf : m.wf → m'.wf
  freshErased : m.freshErased → m'.freshErased

theorem KeepsForm.refl (m : Memory) : KeepsForm m m := ⟨id, id⟩

theorem KeepsForm.of_eq {m m' : Memory} (h : m' = m) : KeepsForm m m' := h ▸ .refl m'

theorem KeepsForm.trans {m m' m'' : Memory} (h : KeepsForm m m') (g : KeepsForm m' m'') :
    KeepsForm m m'' := ⟨g.wf ∘ h.wf, g.freshErased ∘ h.freshErased⟩

/-- The byte that a put writes is not fresh afterwards. -/
theorem KeepsForm.put (m : Memory) (a : Nat) (v : Byte) : KeepsForm m (m.put a v) := by
  refine ⟨fun h => Memory.put_wf h a v, fun h x hx => ?_⟩
  by_cases hxa : x = a
  · rw [hxa, Memory.fresh_put_same] at hx; cases hx
  · rw [Memory.fresh_put_other m v hxa] at hx
    rw [Memory.read_put_other m v hxa, h x hx]

/-- The bytes that an erase makes fresh read 0xFF. -/
theorem KeepsForm.erase (m : Memory) (base n : Nat) : KeepsForm m (m.erase base n) := by
  refine ⟨fun h => Memory.erase_wf h base n, fun h x hx => ?_⟩
  by_cases hin : base ≤ x ∧ x < base + n
  · exact Memory.read_erase_inside m hin.1 hin.2
  · have hout : x < base ∨ base + n ≤ x := by omega
    rw [Memory.fresh_erase_outside m hout] at hx
    rw [Memory.read_erase_outside m hout, h x hx]

theorem KeepsForm.scramble (m : Memory) (base d n : Nat) : KeepsForm m (m.scramble base d n) := by
  induction n with
  | zero => exact .refl m
  | succ n ih => exact ih.trans (.put _ _ _)

section
variable {s t : State}

theorem flashComplete_keepsForm (s : State) : KeepsForm s.mem (flashComplete s).mem := by
  unfold flashComplete
  split
  · exact .erase _ _ _
  · exact .put _ _ _
  · exact .refl _

theorem flashAtLoss_keepsForm (s : State) : KeepsForm s.mem (flashAtLoss s).1 := by
  unfold flashAtLoss
  split
  · exact .scramble _ _ _ _
  · exact .put _ _ _
  · exact .refl _

/-- Only the flash engine's completion and a power loss write flash, and both keep its form. -/
theorem takeMove_keepsForm {m : Move} (h : takeMove m s = .next t) : KeepsForm s.mem t.mem := by
  rcases takeMove_next h with h | ⟨_, -, -, h⟩ | ⟨-, -, rfl⟩ | ⟨_, -, -, -, rfl⟩ |
    ⟨_, _, _, _, -, -, rfl⟩ | ⟨-, -, rfl⟩ | ⟨-, rfl⟩
  · exact .of_eq (cpuStep_keeps h).mem
  · obtain ⟨_, -, -, -, -, -, -, rfl⟩ := enterSource_next h
    exact .refl _
  · exact .refl _
  · exact .of_eq (lineComplete_mem _ s)
  · exact .of_eq (lineDeliver_mem _ _ _ _ s)
  · exact flashComplete_keepsForm s
  · exact flashAtLoss_keepsForm s

/-- Recording a stop and taking the move off the plan leave flash alone. -/
theorem step_keepsForm (h : step s = .next t) : KeepsForm s.mem t.mem := by
  obtain ⟨-, -, hm | ⟨_, -, rfl⟩ | ⟨_, -, rfl⟩⟩ := step_next h
  · exact takeMove_keepsForm (s := s.popMove) hm
  · exact .refl _
  · exact .refl _

end

/-- Settles O27: each write of flash, by the engine or by a power loss, is made of puts and erases;
a put byte is not fresh, and an erased one reads 0xFF. -/
theorem freshBytesReadErased : Obligations.FreshBytesReadErased := by
  intro s t hwf h
  obtain ⟨hform, hfresh⟩ := step_keepsForm h
  exact ⟨hform hwf, hfresh⟩

end Sys2Proof.Machine

namespace Sys2Proof.Machine

/-! ### Frames of the updates that the flash and store commands make -/

section
variable {s u : State} {ps : List Part}

theorem keepsAllBut_issue {op : FlashOp} (hf : Part.engine ∈ ps) (h : keepsAllBut ps s u) :
    keepsAllBut ps s (u.issue op) := by
  intro p hp
  have hk := h p hp
  cases p with
  | engine => exact absurd hf hp
  | line k => cases k <;> exact hk
  | _ => exact hk

theorem keepsAllBut_cursor {a : Option Half} (hf : Part.cursor ∈ ps) (h : keepsAllBut ps s u) :
    keepsAllBut ps s { u with addr := a } := by
  intro p hp
  have hk := h p hp
  cases p with
  | cursor => exact absurd hf hp
  | line k => cases k <;> exact hk
  | _ => exact hk

theorem keepsAllBut_latch {b : Option Byte} (hf : Part.latch ∈ ps) (h : keepsAllBut ps s u) :
    keepsAllBut ps s { u with dl := b } := by
  intro p hp
  have hk := h p hp
  cases p with
  | latch => exact absurd hf hp
  | line k => cases k <;> exact hk
  | _ => exact hk

theorem keepsAllBut_load {present : Bool} {len : Fin 28} {buf : Vector (Option Byte) 27}
    (hf : Part.load ∈ ps) (h : keepsAllBut ps s u) :
    keepsAllBut ps s { u with loadPresent := present, loadLen := len, loadBuf := buf } := by
  intro p hp
  have hk := h p hp
  cases p with
  | load => exact absurd hf hp
  | line k => cases k <;> exact hk
  | _ => exact hk

theorem keepsAllBut_plan {plan : List Move} (hf : Part.model ∈ ps) (h : keepsAllBut ps s u) :
    keepsAllBut ps s { u with plan := plan } := by
  intro p hp
  have hk := h p hp
  cases p with
  | model => exact absurd hf hp
  | line k => cases k <;> exact hk
  | _ => exact hk

/-- FlashEngine's completion touches the engine, flash and the draw counter only. -/
theorem keepsAllBut_flashComplete (he : Part.engine ∈ ps) (hf : Part.flash ∈ ps)
    (hm : Part.model ∈ ps) (h : keepsAllBut ps s u) : keepsAllBut ps s (flashComplete u) := by
  intro p hp
  have hk := h p hp
  cases p with
  | engine => exact absurd he hp
  | flash => exact absurd hf hp
  | model => exact absurd hm hp
  | line k => cases k <;> unfold flashComplete <;> split <;> exact hk
  | _ => unfold flashComplete; split <;> exact hk

end

/-! ### The checks that pass -/

section
variable {s : State}

theorem flashIdle_idle {r : Result} (h : s.flBusy = false) : flashIdle s r = r := by
  simp [flashIdle, h]

theorem withByte_operand {b : ByteOp} {v : Byte} {c : Byte → Result} (h : operandIs b s v) :
    withByte b s c = c v := by
  rcases h with rfl | ⟨rfl, hv⟩
  · rfl
  · simp [withByte, hv]

theorem withSlotCursor_passes {c : Half → Result} {a : Half} (ha : s.addr = some a)
    (hr : s.cfg.inRegion a.toNat = true) : withSlotCursor s c = c a := by
  simp [withSlotCursor, ha, hr]

theorem readCursor_passes {c : Half → Byte → Result} {a : Half} (ha : s.addr = some a)
    (hr : s.cfg.inRegion a.toNat = true) (hb : s.flBusy = false) :
    readCursor s c = c a (s.mem.read a.toNat) := by
  rw [readCursor, withCursor_passes ha hr, flashIdle_idle hb]

theorem programM1_issues {b : ByteOp} {v : Byte} {a : Half} (m : Micro) (hv : operandIs b s v)
    (ha : s.addr = some a) (hr : s.cfg.inRegion a.toNat = true) (hb : s.flBusy = false) :
    programM1 b m s = .next ((s.issue (.program a.toNat v)).setMicro m) := by
  rw [programM1, withByte_operand hv, withCursor_passes ha hr, flashIdle_idle hb]

theorem exec_flRead_reads {a : Half} (ha : s.addr = some a) (hr : s.cfg.inRegion a.toNat = true)
    (hb : s.flBusy = false) :
    exec .flRead s = .next ({ s with dl := some (s.mem.read a.toNat) } : State).finish := by
  rw [exec, execFlRead, readCursor_passes ha hr hb]

theorem exec_nvRdb_reads {a : Half} (ha : s.addr = some a) (hr : s.cfg.inRegion a.toNat = true)
    (hb : s.flBusy = false) :
    exec .nvRdb s = .next ({ s with
      dl := some (s.mem.read a.toNat), addr := some (a + 1) } : State).finish := by
  rw [exec, execNvRdb, readCursor_passes ha hr hb]

theorem exec_flErase_issues {a : Half} (ha : s.addr = some a)
    (hr : s.cfg.inRegion a.toNat = true) (hb : s.flBusy = false) :
    exec .flErase s = .next ((s.issue (.erase (s.cfg.sectorBase a.toNat))).setMicro .flErase) := by
  rw [exec, execFlErase, withCursor_passes ha hr, flashIdle_idle hb]

theorem saveStart_issues {c : State → Result} (hb : s.flBusy = false) :
    saveStart s c = c (({ s with addr := some s.cfg.slotAddr } : State).issue
      (.erase (s.cfg.sectorBase s.cfg.slotAddr.toNat))) := flashIdle_idle hb

theorem exec_nvSave_issues (n : BitVec 5) (hb : s.flBusy = false) :
    exec (.nvSave n) s = .next ((({ s with addr := some s.cfg.slotAddr } : State).issue
      (.erase (s.cfg.sectorBase s.cfg.slotAddr.toNat))).setMicro (.nvSave n.toNat .s2)) := by
  rw [exec, execNvSave, saveStart_issues hb]

theorem saveByte_undef {n i : Nat} {c : Byte → Result} (hi : i < n)
    (h : s.echoBuf[i]? = some none) : saveByte n i s c = .fault (.bufUndef s.info i) := by
  simp [saveByte, hi, h]

theorem loadStart_absent {more : LoadPos → State → Result} {fin : State → Result}
    (hb : s.flBusy = false) (h : s.mem.read s.cfg.slotAddr.toNat = sentinel) :
    loadStart s more fin = fin { s with
      addr := some (s.cfg.slotAddr + 1), loadPresent := false, loadLen := 0 } := by
  rw [loadStart, flashIdle_idle hb]
  exact if_pos h

theorem loadStart_present {more : LoadPos → State → Result} {fin : State → Result}
    (hb : s.flBusy = false) (h : s.mem.read s.cfg.slotAddr.toNat ≠ sentinel) :
    loadStart s more fin = more (.l2 0 (s.mem.read s.cfg.slotAddr.toNat))
      { s with addr := some (s.cfg.slotAddr + 1), loadPresent := true } := by
  rw [loadStart, flashIdle_idle hb]
  exact if_neg h

theorem exec_nvLoad_absent (hb : s.flBusy = false)
    (h : s.mem.read s.cfg.slotAddr.toNat = sentinel) :
    exec .nvLoad s = .next ({ s with
      addr := some (s.cfg.slotAddr + 1), loadPresent := false, loadLen := 0 } : State).finish := by
  rw [exec, execNvLoad, loadStart_absent hb h]

theorem exec_nvLoad_present (hb : s.flBusy = false)
    (h : s.mem.read s.cfg.slotAddr.toNat ≠ sentinel) :
    exec .nvLoad s = .next (({ s with
      addr := some (s.cfg.slotAddr + 1), loadPresent := true } : State).setMicro
        (.nvLoad (.l2 0 (s.mem.read s.cfg.slotAddr.toNat)))) := by
  rw [exec, execNvLoad, loadStart_present hb h]

theorem cpuStep_resume {m : Micro} (h : s.ctx.micro = some m) : cpuStep s = resume m s := by
  simp [cpuStep, h]

theorem cpuStep_exec {w : CmdWord} {i : Instr} (hw : s.atWord w) (hd : decode w = .ok i) :
    cpuStep s = exec i s := by
  obtain ⟨hmicro, hpast, hrom⟩ := hw
  simp [cpuStep, withFetch, hmicro, hpast, hrom, hd]

theorem cpuStep_save_undef {n i : Nat} (hm : s.ctx.micro = some (.nvSave n (.s3 i))) (hi : i < n)
    (h : s.echoBuf[i]? = some none) : cpuStep s = .fault (.bufUndef s.info i) := by
  rw [cpuStep_resume hm, resume, saveNext, saveByte_undef hi h]

end

/-! ### The first micro-steps of the flash and store commands (41_flash_store.md R144-R152) -/

/-- Settles O19: `FL.SETADDR` is one micro-step that writes the cursor, and the word is its
encoding. -/
theorem setaddrPositionsTheCursor : Obligations.SetaddrPositionsTheCursor := by
  refine ⟨fun a => decodeOfEncodeIsTheCommand (.flSetaddr a) rfl, fun s a => ?_⟩
  exact ⟨_, rfl, rfl, nextCommand_finish rfl,
    keepsAllBut_finish (by decide) (keepsAllBut_cursor (by decide) (keepsAllBut_refl _ s))⟩

/-- Settles O20: with the cursor in the region and the engine idle both reads pass their checks. -/
theorem readsPutTheByteAtTheCursorIntoDl : Obligations.ReadsPutTheByteAtTheCursorIntoDl := by
  intro s a ha hr hb
  refine ⟨⟨_, exec_flRead_reads ha hr hb, rfl, nextCommand_finish rfl, ?_⟩,
    ⟨_, exec_nvRdb_reads ha hr hb, rfl, rfl, nextCommand_finish rfl, ?_⟩⟩
  · exact keepsAllBut_finish (by decide) (keepsAllBut_latch (by decide) (keepsAllBut_refl _ s))
  · exact keepsAllBut_finish (by decide) (keepsAllBut_cursor
      (u := { s with dl := some (s.mem.read a.toNat) }) (by decide)
      (keepsAllBut_latch (by decide) (keepsAllBut_refl _ s)))

/-- Settles O22: with the checks passed, each of the four commands issues its operation. -/
theorem flashCommandsIssueTheirOperation : Obligations.FlashCommandsIssueTheirOperation := by
  have hkeeps : ∀ (s : State) (op : FlashOp) (m : Micro),
      keepsAllBut [.frame, .engine] s ((s.issue op).setMicro m) := fun s _ _ =>
    keepsAllBut_setMicro (by decide) (keepsAllBut_issue (by decide) (keepsAllBut_refl _ s))
  refine ⟨fun s a ha hr hb => ⟨?_, fun b v hv => ⟨?_, ?_⟩⟩,
    fun s n => ⟨flashIdle_busy, fun hb => ?_⟩⟩
  · exact ⟨_, exec_flErase_issues ha hr hb, rfl, rfl, goesOnAt_setMicro rfl, hkeeps _ _ _⟩
  · exact ⟨_, programM1_issues .flProg hv ha hr hb, rfl, rfl, goesOnAt_setMicro rfl, hkeeps _ _ _⟩
  · exact ⟨_, programM1_issues .nvWrb hv ha hr hb, rfl, rfl, goesOnAt_setMicro rfl, hkeeps _ _ _⟩
  · exact ⟨_, exec_nvSave_issues n hb, rfl, rfl, rfl, goesOnAt_setMicro rfl,
      keepsAllBut_setMicro (by decide) (keepsAllBut_issue (by decide)
        (keepsAllBut_cursor (by decide) (keepsAllBut_refl _ s)))⟩

/-- Settles O31: the byte at the slot decides how L1 ends. -/
theorem loadLooksAtTheFirstByte : Obligations.LoadLooksAtTheFirstByte := by
  refine ⟨fun s => flashIdle_busy, fun s hb h => ?_, fun s hb h => ?_⟩
  · exact ⟨_, exec_nvLoad_absent hb h, rfl, rfl, rfl, rfl, nextCommand_finish rfl,
      keepsAllBut_finish (by decide) (keepsAllBut_load
        (u := { s with addr := some (s.cfg.slotAddr + 1) }) (by decide)
        (keepsAllBut_cursor (by decide) (keepsAllBut_refl _ s)))⟩
  · exact ⟨_, exec_nvLoad_present hb h, rfl, rfl, rfl, rfl, goesOnAt_setMicro rfl,
      keepsAllBut_setMicro (by decide) (keepsAllBut_load
        (u := { s with addr := some (s.cfg.slotAddr + 1) }) (by decide)
        (keepsAllBut_cursor (by decide) (keepsAllBut_refl _ s)))⟩

/-- Settles O30: S3 reads the buffer before any other effect, and a stop is only recorded. -/
theorem saveOfAnUndefEntryFaults : Obligations.SaveOfAnUndefEntryFaults := by
  intro s rest n i hr hp hm hi hundef
  rw [step_cpu hr hp, cpuStep_save_undef (s := { s with plan := rest }) hm hi hundef]
  rfl

end Sys2Proof.Machine

namespace Sys2Proof.Machine

/-! ### Runs of named moves -/

/-- The state with the moves `plan` still to come (log 2). -/
def State.withPlan (s : State) (plan : List Move) : State := { s with plan := plan }

section
variable (s : State) (plan : List Move)

@[simp] theorem State.withPlan_cfg : (s.withPlan plan).cfg = s.cfg := rfl
@[simp] theorem State.withPlan_ctx : (s.withPlan plan).ctx = s.ctx := rfl
@[simp] theorem State.withPlan_addr : (s.withPlan plan).addr = s.addr := rfl
@[simp] theorem State.withPlan_flBusy : (s.withPlan plan).flBusy = s.flBusy := rfl
@[simp] theorem State.withPlan_flOp : (s.withPlan plan).flOp = s.flOp := rfl
@[simp] theorem State.withPlan_mem : (s.withPlan plan).mem = s.mem := rfl
@[simp] theorem State.withPlan_echoBuf : (s.withPlan plan).echoBuf = s.echoBuf := rfl

end

/-- The running state `s` comes, under the moves `ms` with which its plan begins, to the running
state `t`. -/
structure Leads (ms : List Move) (s t : State) : Prop where
  run : Host.Core.run Sys2Proof.core ms.length s = .next t
  plan : s.plan = ms ++ t.plan
  running : t.running = true

theorem run_add {M : Host.Core} {j k : Nat} {s t : M.State} (h : M.run j s = .next t) :
    M.run (j + k) s = M.run k t := by
  induction j generalizing s with
  | zero => cases h; rw [Nat.zero_add]
  | succ j ih =>
    rw [Nat.succ_add]
    simp only [Host.Core.run] at h ⊢
    cases hs : M.step s with
    | next u => rw [hs] at h; exact ih h
    | fault f => rw [hs] at h; cases h
    | refused r => rw [hs] at h; cases h

section
variable {s t u : State} {ms ms' rest : List Move}

theorem Leads.refl (hr : s.running = true) : Leads [] s s := ⟨rfl, rfl, hr⟩

theorem Leads.trans (h : Leads ms s t) (g : Leads ms' t u) : Leads (ms ++ ms') s u where
  run := by rw [List.length_append, run_add h.run, g.run]
  plan := by rw [h.plan, g.plan, List.append_assoc]
  running := g.running

/-- A run from the state in which `runs` starts: its plan is the moves. -/
theorem Leads.runs (h : Leads ms (s.withPlan ms) t) : runs ms s t := ⟨h.run, h.running⟩

theorem step_move {m : Move} (hr : s.running = true) (hp : s.plan = m :: rest)
    (h : takeMove m (s.withPlan rest) = .next t) : step s = .next t := by
  simp only [State.running, Bool.and_eq_true, Option.isNone_iff_eq_none] at hr
  exact (step_planned hr.1 hr.2 hp).trans (congrArg (recordStop (s.withPlan rest)) h)

/-- One move whose agent goes on. -/
theorem Leads.move {m : Move} (hr : s.running = true) (hp : s.plan = m :: rest)
    (h : takeMove m (s.withPlan rest) = .next t) (hplan : t.plan = rest)
    (hrt : t.running = true) : Leads [m] s t where
  run := by
    show Host.Core.run Sys2Proof.core 1 s = .next t
    simp only [Host.Core.run, show Sys2Proof.core.step s = .next t from step_move hr hp h]
  plan := by rw [hp, hplan]; rfl
  running := hrt

theorem running_of_cpuStep (h : cpuStep s = .next t) : t.running = s.running := by
  have hk := cpuStep_keeps h
  unfold State.running
  rw [hk.fault, hk.refused]

theorem Leads.cpu (hr : s.running = true) (hp : s.plan = .cpu :: rest)
    (h : cpuStep (s.withPlan rest) = .next t) : Leads [.cpu] s t :=
  .move hr hp h (cpuStep_keeps h).plan ((running_of_cpuStep h).trans hr)

end

/-! ### FlashEngine's completion, field by field (41_flash_store.md R147) -/

section
variable {s : State}

@[simp] theorem flashComplete_cfg : (flashComplete s).cfg = s.cfg := by
  unfold flashComplete; split <;> rfl

@[simp] theorem flashComplete_ctx : (flashComplete s).ctx = s.ctx := by
  unfold flashComplete; split <;> rfl

@[simp] theorem flashComplete_addr : (flashComplete s).addr = s.addr := by
  unfold flashComplete; split <;> rfl

@[simp] theorem flashComplete_plan : (flashComplete s).plan = s.plan := by
  unfold flashComplete; split <;> rfl

@[simp] theorem flashComplete_running : (flashComplete s).running = s.running := by
  unfold flashComplete; split <;> rfl

@[simp] theorem flashComplete_flBusy : (flashComplete s).flBusy = false := by
  unfold flashComplete; split <;> rfl

@[simp] theorem flashComplete_flOp : (flashComplete s).flOp = none := by
  unfold flashComplete
  split
  · rfl
  · rfl
  · next hop => exact hop

theorem flashComplete_mem_erase {base : Nat} (h : s.flOp = some (.erase base)) :
    (flashComplete s).mem = s.mem.erase base s.cfg.sectorSize := by
  simp [flashComplete, h]

theorem flashComplete_mem_program {a : Nat} {v : Byte} (h : s.flOp = some (.program a v)) :
    (flashComplete s).mem = s.mem.program a v (Config.freeByte s.draws) := by
  simp [flashComplete, h]

theorem flashComplete_withPlan (plan : List Move) :
    flashComplete (s.withPlan plan) = (flashComplete s).withPlan plan := by
  rcases hop : s.flOp with _ | base | ⟨a, v⟩ <;> simp [flashComplete, State.withPlan, hop]

theorem takeMove_flash (h : s.flBusy = true) : takeMove .flash s = .next (flashComplete s) :=
  if_pos h

end

section
variable {m : Memory} {base n a x : Nat} {v d : Byte}

theorem Memory.erase_inside (h : base ≤ x) (g : x < base + n) :
    (m.erase base n).read x = sentinel ∧ (m.erase base n).fresh x = true :=
  ⟨m.read_erase_inside h g, m.fresh_erase_inside h g⟩

theorem Memory.erase_outside (h : x < base ∨ base + n ≤ x) :
    (m.erase base n).read x = m.read x ∧ (m.erase base n).fresh x = m.fresh x :=
  ⟨m.read_erase_outside h, m.fresh_erase_outside h⟩

theorem Memory.put_other (h : x ≠ a) :
    (m.put a v).read x = m.read x ∧ (m.put a v).fresh x = m.fresh x :=
  ⟨m.read_put_other v h, m.fresh_put_other v h⟩

/-- A program of a fresh byte stores it (41_flash_store.md R141). -/
theorem Memory.program_fresh (h : m.fresh a = true) : m.program a v d = m.put a v := by
  rw [Memory.program, if_pos h]

end

/-- Settles O25: the completion is the erase, or the put that R141 gives for the program, of the
operation in `FL_OP`. -/
theorem engineCarriesOutTheOperation : Obligations.EngineCarriesOutTheOperation := by
  intro s rest hr hp hb hwf
  have hstep : step s = .next (flashComplete (s.withPlan rest)) :=
    step_move hr hp (takeMove_flash hb)
  have hkeeps : keepsAllBut [.engine, .flash, .model] s (flashComplete (s.withPlan rest)) :=
    keepsAllBut_flashComplete (by decide) (by decide) (by decide)
      (keepsAllBut_plan (by decide) (keepsAllBut_refl _ s))
  refine ⟨fun base hop => ?_, fun a v hop => ?_⟩
  · have hmem := flashComplete_mem_erase (s := s.withPlan rest) hop
    refine ⟨_, hstep, ?_, ?_, flashComplete_flBusy, flashComplete_flOp, hkeeps⟩
    · intro x h g; rw [hmem]; exact Memory.erase_inside h g
    · intro x h; rw [hmem]; exact Memory.erase_outside h
  · have hmem := flashComplete_mem_program (s := s.withPlan rest) hop
    refine ⟨_, hstep, ?_, ?_, ?_, flashComplete_flBusy, flashComplete_flOp, hkeeps⟩
    · rw [hmem]; exact Memory.read_put_same hwf _ _
    · rw [hmem]; exact Memory.fresh_put_same _ _ _
    · intro x h; rw [hmem]; exact Memory.put_other h

/-! ### One flash operation that nothing interrupts -/

section
variable {s t u : State} {rest : List Move}

/-- A micro-step that issues an operation, its completion, and the micro-step that ends the hold. -/
theorem leads_flashMoves (hr : s.running = true) (hp : s.plan = flashMoves ++ rest)
    (hissue : cpuStep (s.withPlan (.flash :: .cpu :: rest)) = .next u) (hb : u.flBusy = true)
    (hhold : cpuStep ((flashComplete u).withPlan rest) = .next t) : Leads flashMoves s t := by
  have hplan : u.plan = .flash :: .cpu :: rest := (cpuStep_keeps hissue).plan
  have hru : u.running = true := (running_of_cpuStep hissue).trans hr
  have hflash : Leads [.flash] u (flashComplete (u.withPlan (.cpu :: rest))) :=
    .move hru hplan (takeMove_flash (s := u.withPlan (.cpu :: rest)) hb) flashComplete_plan
      (flashComplete_running.trans hru)
  have hcpu : Leads [.cpu] (flashComplete (u.withPlan (.cpu :: rest))) t :=
    .cpu hflash.running flashComplete_plan (by rwa [flashComplete_withPlan])
  exact (Leads.cpu hr hp hissue).trans (hflash.trans hcpu)

/-- The operation `op` has been issued, by a micro-step whose hold is at `m`, and has completed. -/
def State.flashed (s : State) (op : FlashOp) (m : Micro) : State :=
  flashComplete ((s.issue op).setMicro m)

@[simp] theorem State.flashed_cfg {op : FlashOp} {m : Micro} : (s.flashed op m).cfg = s.cfg :=
  flashComplete_cfg

@[simp] theorem State.flashed_ctx {op : FlashOp} {m : Micro} :
    (s.flashed op m).ctx = { s.ctx with micro := some m } := by simp [State.flashed]

@[simp] theorem State.flashed_addr {op : FlashOp} {m : Micro} : (s.flashed op m).addr = s.addr :=
  flashComplete_addr

@[simp] theorem State.flashed_flBusy {op : FlashOp} {m : Micro} :
    (s.flashed op m).flBusy = false := flashComplete_flBusy

@[simp] theorem State.flashed_flOp {op : FlashOp} {m : Micro} : (s.flashed op m).flOp = none :=
  flashComplete_flOp

theorem State.flashed_mem_erase {base : Nat} {m : Micro} :
    (s.flashed (.erase base) m).mem = s.mem.erase base s.cfg.sectorSize :=
  flashComplete_mem_erase rfl

theorem State.flashed_mem_program {a : Nat} {v : Byte} {m : Micro} :
    (s.flashed (.program a v) m).mem = s.mem.program a v (Config.freeByte s.draws) :=
  flashComplete_mem_program rfl

theorem keepsAllBut_flashed {ps : List Part} {op : FlashOp} {m : Micro} (hc : Part.frame ∈ ps)
    (he : Part.engine ∈ ps) (hf : Part.flash ∈ ps) (hm : Part.model ∈ ps)
    (h : keepsAllBut ps s u) : keepsAllBut ps s (u.flashed op m) :=
  keepsAllBut_flashComplete he hf hm (keepsAllBut_setMicro hc (keepsAllBut_issue he h))

/-- The run of one operation; `v` is the state in which the first micro-step issues it. -/
theorem leads_flashed {v : State} {op : FlashOp} {m : Micro} (hr : s.running = true)
    (hp : s.plan = flashMoves ++ rest)
    (hissue : ∀ plan, cpuStep (s.withPlan plan) =
      .next (((v.issue op).setMicro m).withPlan plan))
    (hhold : cpuStep ((v.flashed op m).withPlan rest) = .next t) : Leads flashMoves s t :=
  leads_flashMoves hr hp (hissue _) rfl (by rwa [flashComplete_withPlan])

theorem cpuStep_holds_no_more (hm : s.ctx.micro = some .flErase ∨ s.ctx.micro = some .flProg)
    (hb : s.flBusy = false) : cpuStep s = .next s.finish := by
  rcases hm with hm | hm <;> simp [cpuStep_resume hm, resume, holdFlash, hb]

theorem cpuStep_wrb_holds_no_more (hm : s.ctx.micro = some .nvWrb) (hb : s.flBusy = false) :
    cpuStep s = .next s.bumpAddr.finish := by
  simp [cpuStep_resume hm, resume, wrbM2, hb]

end

/-- Settles O23: the run issues the erase of the cursor's sector, the engine erases it, and the hold
ends. -/
theorem eraseClearsTheSectorOfTheCursor : Obligations.EraseClearsTheSectorOfTheCursor := by
  intro s a hr hw ha hreg hb
  have hissue : ∀ plan, cpuStep (s.withPlan plan) = .next
      (((s.issue (.erase (s.cfg.sectorBase a.toNat))).setMicro .flErase).withPlan plan) :=
    fun plan => (cpuStep_exec (s := s.withPlan plan) hw rfl).trans
      (exec_flErase_issues (s := s.withPlan plan) ha hreg hb)
  have hrun : Leads flashMoves (s.withPlan flashMoves)
      ((s.flashed (.erase (s.cfg.sectorBase a.toNat)) .flErase).withPlan []).finish :=
    leads_flashed (v := s) hr rfl hissue (cpuStep_holds_no_more (by simp) (by simp))
  refine ⟨_, hrun.runs, ?_, ?_, State.flashed_flBusy, State.flashed_flOp, ?_, ?_⟩
  · intro x h g
    simpa [State.flashed_mem_erase] using Memory.erase_inside (m := s.mem) h g
  · intro x h
    simpa [State.flashed_mem_erase] using Memory.erase_outside (m := s.mem) h
  · simp [nextCommand]
  · exact keepsAllBut_finish (by decide) (keepsAllBut_plan (by decide)
      (keepsAllBut_flashed (by decide) (by decide) (by decide) (by decide) (keepsAllBut_refl _ s)))

/-- What a completed program leaves (41_flash_store.md R141). -/
theorem State.flashed_program_bytes {s : State} {a : Nat} {v : Byte} {m : Micro} (hwf : s.mem.wf) :
    (s.mem.fresh a = true → (s.flashed (.program a v) m).mem.read a = v) ∧
    (s.flashed (.program a v) m).mem.fresh a = false ∧
    ∀ x, x ≠ a → (s.flashed (.program a v) m).mem.read x = s.mem.read x ∧
      (s.flashed (.program a v) m).mem.fresh x = s.mem.fresh x := by
  rw [State.flashed_mem_program]
  refine ⟨fun hfresh => ?_, Memory.fresh_put_same _ _ _, fun x => Memory.put_other⟩
  rw [Memory.program_fresh hfresh]
  exact Memory.read_put_same hwf a v

/-- Settles O24: the run issues the program of the cursor's byte, the engine carries it out, and the
hold ends; `NV.WRB` then advances the cursor. -/
theorem programStoresTheByteAtTheCursor : Obligations.ProgramStoresTheByteAtTheCursor := by
  intro s w b v a i hr hw hd hi hv ha hreg hb hwf
  have hissue : ∀ m, (∀ u, exec i u = programM1 b m u) → ∀ plan, cpuStep (s.withPlan plan) =
      .next (((s.issue (.program a.toNat v)).setMicro m).withPlan plan) := fun m hexec plan =>
    (cpuStep_exec (s := s.withPlan plan) hw hd).trans ((hexec _).trans
      (programM1_issues (s := s.withPlan plan) m hv ha hreg hb))
  have hkeeps : ∀ m, keepsAllBut [.frame, .engine, .flash, .cursor, .model] s
      ((s.flashed (.program a.toNat v) m).withPlan []) := fun m =>
    keepsAllBut_plan (by decide)
      (keepsAllBut_flashed (by decide) (by decide) (by decide) (by decide) (keepsAllBut_refl _ s))
  rcases hi with rfl | rfl
  · have hrun : Leads flashMoves (s.withPlan flashMoves)
        ((s.flashed (.program a.toNat v) .flProg).withPlan []).finish :=
      leads_flashed hr rfl (hissue _ fun _ => rfl) (cpuStep_holds_no_more (by simp) (by simp))
    obtain ⟨hread, hfresh, hother⟩ := State.flashed_program_bytes (m := .flProg) hwf
    exact ⟨_, hrun.runs, hread, hfresh, hother, by simp [ha], by simp, by simp, by simp,
      by simp [nextCommand], keepsAllBut_finish (by decide) (hkeeps _)⟩
  · have hrun : Leads flashMoves (s.withPlan flashMoves)
        ((s.flashed (.program a.toNat v) .nvWrb).withPlan []).bumpAddr.finish :=
      leads_flashed hr rfl (hissue _ fun _ => rfl) (cpuStep_wrb_holds_no_more (by simp) (by simp))
    obtain ⟨hread, hfresh, hother⟩ := State.flashed_program_bytes (m := .nvWrb) hwf
    exact ⟨_, hrun.runs, hread, hfresh, hother, by simp, by simp [ha], by simp, by simp,
      by simp [nextCommand],
      keepsAllBut_finish (by decide) (keepsAllBut_cursor (by decide) (hkeeps _))⟩

end Sys2Proof.Machine

namespace Sys2Proof.Machine

/-! ### The slot and its sector (00_scope.md R9, 20_memory.md R85) -/

section
variable {p : Params} {a i : Nat}

theorem sectorBase_le (h : p.regionBase.toNat ≤ a) : p.sectorBase a ≤ a := by
  have := Nat.div_mul_le_self (a - p.regionBase.toNat) p.sectorSize
  unfold Params.sectorBase
  omega

theorem lt_sectorBase_add (h : 0 < p.sectorSize) : a < p.sectorBase a + p.sectorSize := by
  have := Nat.lt_div_mul_add (a := a - p.regionBase.toNat) h
  unfold Params.sectorBase
  omega

theorem slot_toNat (hv : p.valid = true) (hi : i ≤ 26) :
    (p.slotAddr + BitVec.ofNat 16 i).toNat = p.slotAddr.toNat + i := by
  simp only [Params.valid, Bool.and_eq_true, decide_eq_true_eq] at hv
  rw [BitVec.toNat_add, BitVec.toNat_ofNat]
  omega

/-- R9: the slot lies in the region. -/
theorem slot_inRegion (hv : p.valid = true) (hi : i ≤ 26) :
    p.inRegion (p.slotAddr + BitVec.ofNat 16 i).toNat = true := by
  rw [slot_toNat hv hi]
  simp only [Params.valid, Bool.and_eq_true, decide_eq_true_eq] at hv
  simp only [Params.inRegion, Bool.and_eq_true, decide_eq_true_eq]
  omega

/-- R9: the slot lies in one sector. -/
theorem slot_inSector (hv : p.valid = true) (hi : i ≤ 26) :
    p.sectorBase p.slotAddr.toNat ≤ p.slotAddr.toNat + i ∧
      p.slotAddr.toNat + i < p.sectorBase p.slotAddr.toNat + p.sectorSize := by
  simp only [Params.valid, Bool.and_eq_true, decide_eq_true_eq] at hv
  have hlow := sectorBase_le (p := p) (a := p.slotAddr.toNat) (by omega)
  have hhigh := lt_sectorBase_add (p := p) (a := p.slotAddr.toNat + 26) (by omega)
  omega

/-- The cursor's step inside the slot. -/
theorem slot_succ (x : Half) (i : Nat) :
    x + BitVec.ofNat 16 i + 1 = x + BitVec.ofNat 16 (i + 1) := by
  rw [BitVec.ofNat_add, BitVec.add_assoc]; rfl

end

/-! ### `NV.SAVE`, micro-step by micro-step (41_flash_store.md R150) -/

/-- The pointer at a command's end (10_state.md R35). -/
def Ctx.advance (c : Ctx) : Ctx :=
  { pc := c.pc + 1, past := c.past || c.pc == 0xFFFF, micro := none }

/-- The micro-states `pos` run an `NV.SAVE n` and leave the frame as `done` has it. `NV.SAVE` itself
is one such sequence, the save nested in `ECHO.ONBYTE` another (45_echo.md R252). -/
structure SavesAs (n : Nat) (pos : SavePos → Micro) (done : Ctx → Ctx) : Prop where
  resume : ∀ p s, resume (pos p) s =
    saveNext n p s (fun q t => .next (t.setMicro (pos q))) fun t => .next (t.setCtx (done t.ctx))
  done : ∀ c m, done { c with micro := m } = done c

theorem savesAs_nvSave (n : Nat) : SavesAs n (.nvSave n) Ctx.advance :=
  ⟨fun _ _ => rfl, fun _ _ => rfl⟩

/-- `v` is the byte that S3 programs at index `i`: the buffer's, or the terminator after them. -/
def SavedByte (n i : Nat) (buf : Vector (Option Byte) 27) (v : Byte) : Prop :=
  i < n ∧ buf[i]? = some (some v) ∨ n ≤ i ∧ v = terminator

theorem SavedByte.of_lt {n i : Nat} {buf : Vector (Option Byte) 27} {v : Byte}
    (h : SavedByte n i buf v) (hi : i < n) : buf[i]? = some (some v) := by
  rcases h with ⟨-, hv⟩ | ⟨hge, -⟩
  · exact hv
  · exact absurd hi (Nat.not_lt.2 hge)

theorem SavedByte.of_ge {n i : Nat} {buf : Vector (Option Byte) 27} {v : Byte}
    (h : SavedByte n i buf v) (hi : n ≤ i) : v = terminator := by
  rcases h with ⟨hlt, -⟩ | ⟨-, hv⟩
  · exact absurd hlt (Nat.not_lt.2 hi)
  · exact hv

theorem exists_savedByte {n : Nat} {buf : Vector (Option Byte) 27}
    (h : ∀ i, i < n → ∃ v, buf[i]? = some (some v)) (i : Nat) : ∃ v, SavedByte n i buf v := by
  rcases Nat.lt_or_ge i n with hi | hi
  · obtain ⟨v, hv⟩ := h i hi
    exact ⟨v, .inl ⟨hi, hv⟩⟩
  · exact ⟨terminator, .inr ⟨hi, rfl⟩⟩

theorem saveByte_passes {n i : Nat} {s : State} {v : Byte} {c : Byte → Result}
    (h : SavedByte n i s.echoBuf v) : saveByte n i s c = c v := by
  rcases h with ⟨hi, hv⟩ | ⟨hi, rfl⟩
  · simp [saveByte, hi, hv]
  · simp [saveByte, Nat.not_lt.2 hi]

/-- The frame of a save that began in frame `c`, before byte `i`: at S3, or done after the last. -/
def saveCtx (n : Nat) (pos : SavePos → Micro) (done : Ctx → Ctx) (c : Ctx) (i : Nat) : Ctx :=
  if i ≤ n then { c with micro := some (pos (.s3 i)) } else done c

theorem saveCtx_over {n : Nat} {pos : SavePos → Micro} {done : Ctx → Ctx} {c : Ctx} :
    saveCtx n pos done c (n + 1) = done c := if_neg (Nat.not_succ_le_self n)

section
variable {n i : Nat} {pos : SavePos → Micro} {done : Ctx → Ctx} {s : State} {c : Ctx} {v : Byte}

theorem cpuStep_save_s2 (hs : SavesAs n pos done) (hc : s.ctx = { c with micro := some (pos .s2) })
    (hb : s.flBusy = false) : cpuStep s = .next (s.setCtx (saveCtx n pos done c 0)) := by
  rw [cpuStep_resume (m := pos .s2) (by rw [hc]), hs.resume]
  simp [saveNext, hb, saveCtx, State.setMicro, hc]

theorem cpuStep_save_s3 (hs : SavesAs n pos done) (hm : s.ctx.micro = some (pos (.s3 i)))
    (hv : SavedByte n i s.echoBuf v) (hb : s.flBusy = false) {a : Half} (ha : s.addr = some a)
    (hr : s.cfg.inRegion a.toNat = true) :
    cpuStep s = .next ((s.issue (.program a.toNat v)).setMicro (pos (.s4 i))) := by
  rw [cpuStep_resume hm, hs.resume, saveNext, saveByte_passes hv, flashIdle_idle hb,
    withSlotCursor_passes ha hr]

theorem cpuStep_save_s4 (hs : SavesAs n pos done)
    (hc : s.ctx = { c with micro := some (pos (.s4 i)) }) (hb : s.flBusy = false) :
    cpuStep s = .next (s.bumpAddr.setCtx (saveCtx n pos done c (i + 1))) := by
  rw [cpuStep_resume (m := pos (.s4 i)) (by rw [hc]), hs.resume]
  by_cases hi : i + 1 ≤ n
  · simp [saveNext, hb, saveCtx, State.setMicro, hc, hi]
  · simp [saveNext, hb, saveCtx, hc, hi, hs.done]

end

/-- The parts that a save writes. -/
abbrev saveParts : List Part := [.frame, .engine, .cursor, .flash, .model]

/-- Flash when S1's erase of the slot's sector has completed. -/
def State.slotErased (v : State) : Memory :=
  v.mem.erase (v.cfg.sectorBase v.cfg.slotAddr.toNat) v.cfg.sectorSize

/-- In `s`, the save that began in `v` has erased the slot's sector and stored `i` bytes; with
`i = n + 1` it is over. -/
structure Saving (n : Nat) (pos : SavePos → Micro) (done : Ctx → Ctx) (v : State) (i : Nat)
    (s : State) : Prop where
  keeps : keepsAllBut saveParts v s
  ctx : s.ctx = saveCtx n pos done v.ctx i
  addr : s.addr = some (v.cfg.slotAddr + BitVec.ofNat 16 i)
  idle : s.flBusy = false
  ended : s.flOp = none
  wf : s.mem.wf
  stored : ∀ j, j < i → SavedByte n j v.echoBuf (s.mem.read (v.cfg.slotAddr.toNat + j)) ∧
    s.mem.fresh (v.cfg.slotAddr.toNat + j) = false
  others : ∀ x, x < v.cfg.slotAddr.toNat ∨ v.cfg.slotAddr.toNat + i ≤ x →
    s.mem.read x = v.slotErased.read x ∧ s.mem.fresh x = v.slotErased.fresh x

section
variable {n i k : Nat} {pos : SavePos → Micro} {done : Ctx → Ctx} {s v : State} {rest : List Move}

/-- S1 and S2: the slot's sector is erased. -/
theorem leads_saving_zero (hs : SavesAs n pos done) (hwf : v.mem.wf) (hr : s.running = true)
    (hp : s.plan = flashMoves ++ rest)
    (hissue : ∀ plan, cpuStep (s.withPlan plan) =
      .next (((({ v with addr := some v.cfg.slotAddr } : State).issue
        (.erase (v.cfg.sectorBase v.cfg.slotAddr.toNat))).setMicro (pos .s2)).withPlan plan)) :
    ∃ t, Leads flashMoves s t ∧ Saving n pos done v 0 t := by
  have hmem : (({ v with addr := some v.cfg.slotAddr } : State).flashed
      (.erase (v.cfg.sectorBase v.cfg.slotAddr.toNat)) (pos .s2)).mem = v.slotErased :=
    State.flashed_mem_erase
  refine ⟨_, leads_flashed hr hp hissue
    (cpuStep_save_s2 hs (c := v.ctx) State.flashed_ctx (by simp)),
    ?_, State.setCtx_ctx _ _, by simp, by simp, by simp, ?_, fun j hj => ?_, fun x _ => ?_⟩
  · exact keepsAllBut_setCtx (by decide) (keepsAllBut_plan (by decide)
      (keepsAllBut_flashed (by decide) (by decide) (by decide) (by decide)
        (keepsAllBut_cursor (by decide) (keepsAllBut_refl _ v))))
  · exact hmem ▸ Memory.erase_wf hwf _ _
  · exact absurd hj (Nat.not_lt_zero j)
  · exact hmem ▸ ⟨rfl, rfl⟩

/-- S3 and S4 of one byte, whose place in the slot is fresh. -/
theorem Saving.next {b : Byte} (h : Saving n pos done v i s) (hs : SavesAs n pos done)
    (hv : v.cfg.valid = true) (hn : n ≤ 26) (hi : i ≤ n) (hbyte : SavedByte n i v.echoBuf b)
    (hr : s.running = true) (hp : s.plan = flashMoves ++ rest) :
    ∃ t, Leads flashMoves s t ∧ Saving n pos done v (i + 1) t := by
  have hi26 : i ≤ 26 := Nat.le_trans hi hn
  have hcfg : s.cfg = v.cfg := (h.keeps .run (by decide)).1
  have hbuf : s.echoBuf = v.echoBuf := (h.keeps .echo (by decide)).1
  have hm : s.ctx = { v.ctx with micro := some (pos (.s3 i)) } := by rw [h.ctx, saveCtx, if_pos hi]
  have hreg : s.cfg.inRegion (v.cfg.slotAddr + BitVec.ofNat 16 i).toNat = true := by
    rw [hcfg]; exact slot_inRegion hv hi26
  have hissue : ∀ plan, cpuStep (s.withPlan plan) = .next (((s.issue
      (.program (v.cfg.slotAddr + BitVec.ofNat 16 i).toNat b)).setMicro (pos (.s4 i))).withPlan
        plan) := fun plan =>
    cpuStep_save_s3 (s := s.withPlan plan) hs (congrArg Ctx.micro hm) (hbuf ▸ hbyte) h.idle h.addr
      hreg
  rw [slot_toNat hv hi26] at hissue
  have hfresh : s.mem.fresh (v.cfg.slotAddr.toNat + i) = true := by
    obtain ⟨hlow, hhigh⟩ := slot_inSector hv hi26
    rw [(h.others _ (.inr (Nat.le_refl _))).2]
    exact Memory.fresh_erase_inside _ hlow hhigh
  have hmem : (s.flashed (.program (v.cfg.slotAddr.toNat + i) b) (pos (.s4 i))).mem =
      s.mem.put (v.cfg.slotAddr.toNat + i) b := by
    rw [State.flashed_mem_program, Memory.program_fresh hfresh]
  refine ⟨_, leads_flashed hr hp hissue (cpuStep_save_s4 hs (c := v.ctx) (by simp [hm]) (by simp)),
    ?_, State.setCtx_ctx _ _, ?_, by simp, by simp, ?_, fun j hj => ?_, fun x hx => ?_⟩
  · exact keepsAllBut_setCtx (by decide) (keepsAllBut_cursor (by decide)
      (keepsAllBut_plan (by decide)
        (keepsAllBut_flashed (by decide) (by decide) (by decide) (by decide) h.keeps)))
  · simpa [h.addr] using slot_succ _ i
  · simpa [hmem] using Memory.put_wf h.wf _ b
  · simp only [State.setCtx_mem, State.bumpAddr_mem, State.withPlan_mem, hmem]
    rcases Nat.lt_succ_iff_lt_or_eq.1 hj with hlt | rfl
    · obtain ⟨hread, hstale⟩ := Memory.put_other (m := s.mem) (v := b)
        (show v.cfg.slotAddr.toNat + j ≠ v.cfg.slotAddr.toNat + i by omega)
      rw [hread, hstale]
      exact h.stored j hlt
    · rw [Memory.read_put_same h.wf]
      exact ⟨hbyte, Memory.fresh_put_same _ _ _⟩
  · simp only [State.setCtx_mem, State.bumpAddr_mem, State.withPlan_mem, hmem]
    obtain ⟨hread, hstale⟩ := Memory.put_other (m := s.mem) (v := b)
      (show x ≠ v.cfg.slotAddr.toNat + i by omega)
    rw [hread, hstale]
    exact h.others x (by omega)

/-- The bytes of a save, one round of `Saving.next` each. -/
theorem leads_saving (hs : SavesAs n pos done) (hv : v.cfg.valid = true) (hn : n ≤ 26)
    (hbuf : ∀ i, i < n → ∃ b, v.echoBuf[i]? = some (some b)) (hr : s.running = true)
    (h : Saving n pos done v 0 s) (hk : k ≤ n + 1)
    (hp : s.plan = (List.replicate k flashMoves).flatten ++ rest) :
    ∃ t, Leads (List.replicate k flashMoves).flatten s t ∧ Saving n pos done v k t := by
  induction k generalizing rest with
  | zero => exact ⟨s, .refl hr, h⟩
  | succ k ih =>
    have hsplit : (List.replicate (k + 1) flashMoves).flatten =
        (List.replicate k flashMoves).flatten ++ flashMoves := by
      simp [List.replicate_succ']
    rw [hsplit, List.append_assoc] at hp
    obtain ⟨u, hu, hsave⟩ := ih (Nat.le_of_succ_le hk) hp
    obtain ⟨b, hbyte⟩ := exists_savedByte hbuf k
    obtain ⟨t, ht, hdone⟩ := hsave.next hs hv hn (Nat.le_of_succ_le_succ hk) hbyte hu.running
      (List.append_cancel_left (hu.plan.symm.trans hp))
    exact ⟨t, hsplit ▸ hu.trans ht, hdone⟩

/-- A save that nothing interrupts; `v` is the state in which S1 issues the erase. -/
theorem leads_save (hs : SavesAs n pos done) (hv : v.cfg.valid = true) (hn : n ≤ 26)
    (hwf : v.mem.wf) (hbuf : ∀ i, i < n → ∃ b, v.echoBuf[i]? = some (some b))
    (hr : s.running = true) (hp : s.plan = saveMoves n ++ rest)
    (hissue : ∀ plan, cpuStep (s.withPlan plan) =
      .next (((({ v with addr := some v.cfg.slotAddr } : State).issue
        (.erase (v.cfg.sectorBase v.cfg.slotAddr.toNat))).setMicro (pos .s2)).withPlan plan)) :
    ∃ t, Leads (saveMoves n) s t ∧ Saving n pos done v (n + 1) t := by
  rw [saveMoves, List.append_assoc] at hp
  obtain ⟨u, hu, hsave⟩ := leads_saving_zero hs hwf hr hp hissue
  obtain ⟨t, ht, hdone⟩ := leads_saving hs hv hn hbuf hu.running hsave (Nat.le_refl _)
    (List.append_cancel_left (hu.plan.symm.trans hp))
  exact ⟨t, hu.trans ht, hdone⟩

end

theorem length_le_of_decode {w : CmdWord} {n : BitVec 5} (h : decode w = .ok (.nvSave n)) :
    n.toNat ≤ 26 := of_decide_eq_true (encodeOfDecodeIsTheWord w _ h).1

/-- Settles O29: S1 and S2 erase the slot's sector, and each round of S3 and S4 programs one byte of
it, which the erase left fresh. -/
theorem saveStoresTheBufferInTheSlot : Obligations.SaveStoresTheBufferInTheSlot := by
  intro s w n hr hv hwf hw hd hb hbuf
  have hn := length_le_of_decode hd
  obtain ⟨t, hrun, h⟩ := leads_save (s := s.withPlan (saveMoves n.toNat)) (v := s) (rest := [])
    (savesAs_nvSave n.toNat) hv hn hwf hbuf hr (List.append_nil _).symm fun plan =>
      (cpuStep_exec (s := s.withPlan plan) hw hd).trans (exec_nvSave_issues n hb)
  obtain ⟨hlow, -⟩ := slot_inSector hv (Nat.zero_le 26)
  obtain ⟨-, hhigh⟩ := slot_inSector hv hn
  refine ⟨t, hrun.runs, fun i hi => ?_, ?_, fun i hi => (h.stored i (Nat.lt_succ_of_le hi)).2,
    ?_, ?_, h.addr, h.idle, h.ended, ?_, h.keeps⟩
  · exact (h.stored i (Nat.lt_succ_of_lt hi)).1.of_lt hi
  · exact (h.stored _ (Nat.lt_succ_self _)).1.of_ge (Nat.le_refl _)
  · intro x hx hx' hout
    obtain ⟨hread, hfresh⟩ := h.others x (by omega)
    rw [hread, hfresh]
    exact Memory.erase_inside hx hx'
  · intro x hx
    obtain ⟨hread, hfresh⟩ := h.others x (by omega)
    rw [hread, hfresh]
    exact Memory.erase_outside hx
  · exact h.ctx.trans saveCtx_over

end Sys2Proof.Machine

namespace Sys2Proof.Machine

/-! ### `NV.LOAD`, micro-step by micro-step (41_flash_store.md R152) -/

/-- The micro-states `pos` run an `NV.LOAD` and leave the frame as `done` has it. `NV.LOAD` itself
is one such sequence, the load nested in `ECHO.REPLAY` another (45_echo.md R256). -/
structure LoadsAs (pos : LoadPos → Micro) (done : Ctx → Ctx) : Prop where
  resume : ∀ p s, resume (pos p) s =
    loadNext p s (fun q t => .next (t.setMicro (pos q))) fun t => .next (t.setCtx (done t.ctx))
  done : ∀ c m, done { c with micro := m } = done c

theorem loadsAs_nvLoad : LoadsAs .nvLoad Ctx.advance := ⟨fun _ _ => rfl, fun _ _ => rfl⟩

section
variable {pos : LoadPos → Micro} {done : Ctx → Ctx} {s : State} {k : Fin 27} {cur : Byte}

theorem cpuStep_load_terminator (hl : LoadsAs pos done)
    (hm : s.ctx.micro = some (pos (.l2 k terminator))) :
    cpuStep s = .next (({ s with loadLen := loadCount k } : State).setCtx (done s.ctx)) := by
  rw [cpuStep_resume hm, hl.resume]
  rfl

theorem cpuStep_load_more (hl : LoadsAs pos done) (hm : s.ctx.micro = some (pos (.l2 k cur)))
    (hcur : cur ≠ terminator) (hk : k.val + 1 < 27) :
    cpuStep s = .next (({ s with loadBuf := s.loadBuf.set k.val (some cur) } : State).setMicro
      (pos (.l3 ⟨k.val + 1, hk⟩))) := by
  rw [cpuStep_resume hm, hl.resume, loadNext, if_neg hcur, dif_pos hk]

theorem cpuStep_load_full (hl : LoadsAs pos done) (hm : s.ctx.micro = some (pos (.l2 k cur)))
    (hcur : cur ≠ terminator) (hk : ¬ k.val + 1 < 27) :
    cpuStep s = .next (({ s with
      loadBuf := s.loadBuf.set k.val (some cur), loadLen := 27 } : State).setCtx (done s.ctx)) := by
  rw [cpuStep_resume hm, hl.resume, loadNext, if_neg hcur, dif_neg hk]
  rfl

theorem cpuStep_load_l3 (hl : LoadsAs pos done) (hm : s.ctx.micro = some (pos (.l3 k)))
    (hb : s.flBusy = false) {a : Half} (ha : s.addr = some a)
    (hr : s.cfg.inRegion a.toNat = true) :
    cpuStep s = .next (({ s with addr := some (a + 1) } : State).setMicro
      (pos (.l2 k (s.mem.read a.toNat)))) := by
  rw [cpuStep_resume hm, hl.resume, loadNext, flashIdle_idle hb, withSlotCursor_passes ha hr]

end

/-- The parts that a load writes. -/
abbrev loadParts : List Part := [.frame, .cursor, .load, .model]

/-- Byte `i` of the slot. -/
def State.slotByte (s : State) (i : Nat) : Byte := s.mem.read (s.cfg.slotAddr.toNat + i)

/-- `buf` holds the first `k` bytes of the slot of `v`, and keeps the rest of `LOAD_BUF`. -/
structure BufferLoaded (v : State) (k : Nat) (buf : Vector (Option Byte) 27) : Prop where
  loaded : ∀ j, j < k → buf[j]? = some (some (v.slotByte j))
  others : ∀ j, k ≤ j → buf[j]? = v.loadBuf[j]?

/-- In `s`, the load that began in `v` has `k` bytes in the buffer, the cursor at byte `next` of the
slot, and goes on at `p`. -/
structure Loading (pos : LoadPos → Micro) (v : State) (p : LoadPos) (k next : Nat) (s : State) :
    Prop where
  keeps : keepsAllBut loadParts v s
  ctx : s.ctx = { v.ctx with micro := some (pos p) }
  addr : s.addr = some (v.cfg.slotAddr + BitVec.ofNat 16 next)
  present : s.loadPresent = true
  buffer : BufferLoaded v k s.loadBuf

/-- The load stands at L2 with byte `k`. -/
abbrev LoadingByte (pos : LoadPos → Micro) (v : State) (k : Nat) (hk : k < 27) : State → Prop :=
  Loading pos v (.l2 ⟨k, hk⟩ (v.slotByte k)) k (k + 1)

/-- In `s`, the load that began in `v` is over with `len` bytes. -/
structure Loaded (done : Ctx → Ctx) (v : State) (len : Nat) (s : State) : Prop where
  keeps : keepsAllBut loadParts v s
  ctx : s.ctx = done v.ctx
  addr : s.addr = some (v.cfg.slotAddr + BitVec.ofNat 16 (min len 26 + 1))
  present : s.loadPresent = true
  length : s.loadLen.val = len
  buffer : BufferLoaded v len s.loadBuf

section
variable {pos : LoadPos → Micro} {done : Ctx → Ctx} {s v : State} {k : Nat} {rest : List Move}

theorem BufferLoaded.set {buf : Vector (Option Byte) 27} (h : BufferLoaded v k buf) (hk : k < 27) :
    BufferLoaded v (k + 1) (buf.set k (some (v.slotByte k))) := by
  refine ⟨fun j hj => ?_, fun j hj => ?_⟩
  · rcases Nat.lt_succ_iff_lt_or_eq.1 hj with hlt | rfl
    · rw [Vector.getElem?_set_ne hk (Nat.ne_of_gt hlt), h.loaded j hlt]
    · exact Vector.getElem?_set_self hk
  · rw [Vector.getElem?_set_ne hk (by omega), h.others j (by omega)]

theorem setMicro_ctx_of {c : Ctx} {m₀ : Option Micro} {m : Micro}
    (h : s.ctx = { c with micro := m₀ }) : (s.setMicro m).ctx = { c with micro := some m } := by
  rw [State.setMicro_ctx, h]

theorem Loading.micro {p : LoadPos} {next : Nat} (h : Loading pos v p k next s) :
    s.ctx.micro = some (pos p) := congrArg Ctx.micro h.ctx

theorem Loading.done_ctx {p : LoadPos} {next : Nat} (h : Loading pos v p k next s)
    (hl : LoadsAs pos done) : done s.ctx = done v.ctx := by rw [h.ctx, hl.done]

/-- L2 of a byte that is neither the terminator nor the last of the buffer. -/
theorem Loading.store (hl : LoadsAs pos done) (hk : k + 1 < 27)
    (h : LoadingByte pos v k (Nat.lt_of_succ_lt hk) s) (hcur : v.slotByte k ≠ terminator)
    (hr : s.running = true) (hp : s.plan = .cpu :: rest) :
    ∃ t, Leads [.cpu] s t ∧ Loading pos v (.l3 ⟨k + 1, hk⟩) (k + 1) (k + 1) t := by
  refine ⟨_, .cpu hr hp (cpuStep_load_more (s := s.withPlan rest) hl h.micro hcur hk), ?_, ?_,
    h.addr, h.present, h.buffer.set (Nat.lt_of_succ_lt hk)⟩
  · exact keepsAllBut_setMicro (by decide) (keepsAllBut_load (u := s.withPlan rest) (by decide)
      (keepsAllBut_plan (by decide) h.keeps))
  · exact setMicro_ctx_of h.ctx

/-- L3: the next byte of the slot. -/
theorem Loading.fetch (hl : LoadsAs pos done) (hv : v.cfg.valid = true) (hb : v.flBusy = false)
    (hk : k < 27) (h : Loading pos v (.l3 ⟨k, hk⟩) k k s) (hr : s.running = true)
    (hp : s.plan = .cpu :: rest) : ∃ t, Leads [.cpu] s t ∧ LoadingByte pos v k hk t := by
  have hcfg : s.cfg = v.cfg := (h.keeps .run (by decide)).1
  have hidle : s.flBusy = false := (h.keeps .engine (by decide)).1.trans hb
  have hk26 : k ≤ 26 := Nat.le_of_lt_succ hk
  have hreg : s.cfg.inRegion (v.cfg.slotAddr + BitVec.ofNat 16 k).toNat = true := by
    rw [hcfg]; exact slot_inRegion hv hk26
  have hbyte : s.mem.read (v.cfg.slotAddr + BitVec.ofNat 16 k).toNat = v.slotByte k := by
    rw [slot_toNat hv hk26]; exact (h.keeps .flash (by decide) _).1
  have hstep := cpuStep_load_l3 (s := s.withPlan rest) hl h.micro hidle h.addr hreg
  rw [State.withPlan_mem, hbyte] at hstep
  refine ⟨_, .cpu hr hp hstep, ?_, ?_, ?_, h.present, h.buffer⟩
  · exact keepsAllBut_setMicro (by decide) (keepsAllBut_cursor (by decide)
      (keepsAllBut_plan (by decide) h.keeps))
  · exact setMicro_ctx_of h.ctx
  · exact congrArg some (slot_succ _ k)

/-- The bytes of a load, one round of L2 and L3 each. -/
theorem leads_loading (hl : LoadsAs pos done) (hv : v.cfg.valid = true) (hb : v.flBusy = false)
    (hk : k < 27) (hbytes : ∀ j, j < k → v.slotByte j ≠ terminator) (hr : s.running = true)
    (h : LoadingByte pos v 0 (by decide) s) (hp : s.plan = List.replicate (2 * k) .cpu ++ rest) :
    ∃ t, Leads (List.replicate (2 * k) .cpu) s t ∧ LoadingByte pos v k hk t := by
  induction k generalizing rest with
  | zero => exact ⟨s, .refl hr, h⟩
  | succ k ih =>
    have hsplit : List.replicate (2 * (k + 1)) Move.cpu =
        List.replicate (2 * k) .cpu ++ ([.cpu] ++ [.cpu]) :=
      List.replicate_add (2 * k) 2 _
    rw [hsplit, List.append_assoc] at hp
    obtain ⟨u, hu, hload⟩ := ih (Nat.lt_of_succ_lt hk)
      (fun j hj => hbytes j (Nat.lt_succ_of_lt hj)) hp
    have hplan := List.append_cancel_left (hu.plan.symm.trans hp)
    obtain ⟨w, hw, hstored⟩ := hload.store hl hk (hbytes k (Nat.lt_succ_self k)) hu.running hplan
    obtain ⟨t, ht, hfetched⟩ := hstored.fetch hl hv hb hk hw.running
      (List.append_cancel_left (hw.plan.symm.trans hplan))
    exact ⟨t, hsplit ▸ hu.trans (hw.trans ht), hfetched⟩

/-- The last L2: the byte is the terminator. -/
theorem Loading.terminate (hl : LoadsAs pos done) (hk : k < 27) (h : LoadingByte pos v k hk s)
    (hcur : v.slotByte k = terminator) (hr : s.running = true) (hp : s.plan = .cpu :: rest) :
    ∃ t, Leads [.cpu] s t ∧ Loaded done v k t := by
  have hm : s.ctx.micro = some (pos (.l2 ⟨k, hk⟩ terminator)) := hcur ▸ h.micro
  have hmin : min k 26 = k := Nat.min_eq_left (Nat.le_of_lt_succ hk)
  refine ⟨_, .cpu hr hp (cpuStep_load_terminator (s := s.withPlan rest) hl hm), ?_, ?_,
    hmin.symm ▸ h.addr, h.present, rfl, h.buffer⟩
  · exact keepsAllBut_setCtx (by decide) (keepsAllBut_load (u := s.withPlan rest) (by decide)
      (keepsAllBut_plan (by decide) h.keeps))
  · exact (State.setCtx_ctx _ _).trans (h.done_ctx hl)

/-- The last L2: the byte is the 27th. -/
theorem Loading.fill (hl : LoadsAs pos done) (h : LoadingByte pos v 26 (by decide) s)
    (hcur : v.slotByte 26 ≠ terminator) (hr : s.running = true) (hp : s.plan = .cpu :: rest) :
    ∃ t, Leads [.cpu] s t ∧ Loaded done v 27 t := by
  refine ⟨_, .cpu hr hp (cpuStep_load_full (s := s.withPlan rest) hl h.micro hcur (by decide)), ?_,
    ?_, h.addr, h.present, rfl, h.buffer.set (by decide)⟩
  · exact keepsAllBut_setCtx (by decide) (keepsAllBut_load (u := s.withPlan rest) (by decide)
      (keepsAllBut_plan (by decide) h.keeps))
  · exact (State.setCtx_ctx _ _).trans (h.done_ctx hl)

/-- L1 of a slot that is present. -/
theorem Loading.begin (plan : List Move) : LoadingByte pos v 0 (by decide)
    ((({ v with addr := some (v.cfg.slotAddr + 1), loadPresent := true } : State).setMicro
      (pos (.l2 0 (v.slotByte 0)))).withPlan plan) where
  keeps := keepsAllBut_plan (by decide) (keepsAllBut_setMicro (by decide)
    (keepsAllBut_load (u := { v with addr := some (v.cfg.slotAddr + 1) }) (by decide)
      (keepsAllBut_cursor (by decide) (keepsAllBut_refl _ v))))
  ctx := setMicro_ctx_of (c := v.ctx) (m₀ := v.ctx.micro) rfl
  addr := rfl
  present := rfl
  buffer := ⟨fun j hj => absurd hj (Nat.not_lt_zero j), fun _ _ => rfl⟩

/-- The last L2. -/
theorem Loading.finish {len : Nat} (hl : LoadsAs pos done) (hlen : len ≤ 27)
    (hbytes : ∀ j, j < len → v.slotByte j ≠ terminator)
    (hend : len < 27 → v.slotByte len = terminator)
    (h : LoadingByte pos v (min len 26) (Nat.lt_succ_of_le (Nat.min_le_right len 26)) s)
    (hr : s.running = true) (hp : s.plan = .cpu :: rest) :
    ∃ t, Leads [.cpu] s t ∧ Loaded done v len t := by
  rcases Nat.lt_or_eq_of_le hlen with hlt | rfl
  · simp only [Nat.min_eq_left (Nat.le_of_lt_succ hlt)] at h
    exact h.terminate hl hlt (hend hlt) hr hp
  · exact h.fill hl (hbytes 26 (by decide)) hr hp

/-- A load that nothing interrupts, of `len` bytes up to the terminator or of 27; L1 finds the slot
present. -/
theorem leads_load {len : Nat} (hl : LoadsAs pos done) (hv : v.cfg.valid = true)
    (hb : v.flBusy = false) (hlen : len ≤ 27) (hbytes : ∀ j, j < len → v.slotByte j ≠ terminator)
    (hend : len < 27 → v.slotByte len = terminator) (hr : s.running = true)
    (hp : s.plan = loadMoves len ++ rest)
    (hstart : ∀ plan, cpuStep (s.withPlan plan) =
      .next ((({ v with addr := some (v.cfg.slotAddr + 1), loadPresent := true } : State).setMicro
        (pos (.l2 0 (v.slotByte 0)))).withPlan plan)) :
    ∃ t, Leads (loadMoves len) s t ∧ Loaded done v len t := by
  have hsplit : loadMoves len =
      [.cpu] ++ (List.replicate (2 * min len 26) .cpu ++ [.cpu]) := by
    rw [loadMoves, List.replicate_succ, List.replicate_succ']; rfl
  rw [hsplit, List.append_assoc, List.append_assoc] at hp
  have hstarted := Leads.cpu hr hp (hstart _)
  obtain ⟨u, hu, hload⟩ := leads_loading hl hv hb (Nat.lt_succ_of_le (Nat.min_le_right len 26))
    (fun j hj => hbytes j (Nat.lt_of_lt_of_le hj (Nat.min_le_left len 26))) hstarted.running
    (Loading.begin _) rfl
  obtain ⟨t, ht, hloaded⟩ := hload.finish hl hlen hbytes hend hu.running
    (List.append_cancel_left (hu.plan.symm.trans rfl))
  exact ⟨t, hsplit ▸ hstarted.trans (hu.trans ht), hloaded⟩

end

/-- An `NV.LOAD` that nothing interrupts, of `len` bytes of a slot that is present. -/
theorem exists_run_nvLoad {s : State} {len : Nat} (hr : s.running = true) (hv : s.cfg.valid = true)
    (hw : s.atWord 0x260000) (hb : s.flBusy = false) (hlen : len ≤ 27)
    (hpresent : s.slotByte 0 ≠ sentinel) (hbytes : ∀ j, j < len → s.slotByte j ≠ terminator)
    (hend : len < 27 → s.slotByte len = terminator) :
    ∃ t, runs (loadMoves len) s t ∧ Loaded Ctx.advance s len t := by
  obtain ⟨t, hrun, hloaded⟩ := leads_load (s := s.withPlan (loadMoves len)) (v := s) (rest := [])
    loadsAs_nvLoad hv hb hlen hbytes hend hr (List.append_nil _).symm fun plan =>
      (cpuStep_exec (s := s.withPlan plan) hw rfl).trans
        (exec_nvLoad_present (s := s.withPlan plan) hb hpresent)
  exact ⟨t, hrun.runs, hloaded⟩

/-- Settles O32: L1 finds the slot present; each round of L2 and L3 moves one byte to the buffer,
and the last L2 meets the terminator or the buffer's end. -/
theorem loadReadsUpToTheTerminator : Obligations.LoadReadsUpToTheTerminator := by
  refine ⟨fun s k hr hv hw hb hk hpresent hbytes hend => ?_,
    fun s hr hv hw hb hpresent hbytes => ?_⟩
  · obtain ⟨t, hrun, h⟩ :=
      exists_run_nvLoad hr hv hw hb (Nat.le_succ_of_le hk) hpresent hbytes fun _ => hend
    have haddr := h.addr
    rw [Nat.min_eq_left hk] at haddr
    exact ⟨t, hrun, h.present, h.length, h.buffer.loaded, h.buffer.others, haddr, h.ctx, h.keeps⟩
  · obtain ⟨t, hrun, h⟩ :=
      exists_run_nvLoad hr hv hw hb (Nat.le_refl 27) hpresent hbytes (absurd · (by decide))
    exact ⟨t, hrun, h.present, h.length, h.buffer.loaded, h.addr, h.ctx, h.keeps⟩

/-! ### The round trip (41_flash_store.md R153) -/

theorem runs_unique {ms : List Move} {s t t' : State} (h : runs ms s t) (h' : runs ms s t') :
    t = t' := Host.Outcome.next.inj (h.1.symm.trans h'.1)

/-- Settles O33: the save's run leaves the slot as O29 says, with its terminator after the bytes,
and the load then reads up to it. -/
theorem loadReturnsWhatSaveStored : Obligations.LoadReturnsWhatSaveStored := by
  intro s t u w n hr hv hwf hw hd hb hbuf hsave hru hcfg hmem hwu hbu
  have hn := length_le_of_decode hd
  obtain ⟨t', hsave', hbytes, hterm, -⟩ := saveStoresTheBufferInTheSlot s w n hr hv hwf hw hd hb
    fun i hi => (hbuf i hi).imp fun _ h => h.1
  obtain rfl := runs_unique hsave hsave'
  have hslot : ∀ i, u.slotByte i = t.mem.read (s.cfg.slotAddr.toNat + i) := fun i => by
    rw [State.slotByte, hcfg, hmem]
  have hbyte : ∀ i, i < n.toNat →
      u.slotByte i ≠ terminator ∧ (i = 0 → u.slotByte i ≠ sentinel) := by
    intro i hi
    obtain ⟨b, hb, hne⟩ := hbuf i hi
    rw [hbytes i hi, ← hslot, Option.some_inj, Option.some_inj] at hb
    exact hb ▸ hne
  have hend : u.slotByte n.toNat = terminator := (hslot _).trans hterm
  have hpresent : u.slotByte 0 ≠ sentinel := by
    rcases Nat.eq_zero_or_pos n.toNat with hzero | hpos
    · rw [← hzero, hend]; decide
    · exact (hbyte 0 hpos).2 rfl
  obtain ⟨v, hload, h⟩ := exists_run_nvLoad hru (hcfg ▸ hv) hwu hbu (Nat.le_succ_of_le hn) hpresent
    (fun i hi => (hbyte i hi).1) fun _ => hend
  refine ⟨v, hload, h.present, h.length, fun i hi => ?_⟩
  rw [h.buffer.loaded i hi, hbytes i hi, hslot]

end Sys2Proof.Machine

namespace Sys2Proof.Machine

/-! ### Frames of what commands and agents do to a line (42_serial.md) -/

@[simp] theorem State.withPlan_line (s : State) (plan : List Move) (k : Line) :
    (s.withPlan plan).line k = s.line k := rfl

section
variable {s u : State} {ps : List Part} {k : Line} {b : Byte}

theorem keepsAllBut_emit {e : Event} (hf : Part.trace ∈ ps) (h : keepsAllBut ps s u) :
    keepsAllBut ps s (u.emit e) := by
  intro p hp
  have hk := h p hp
  cases p with
  | trace => exact absurd hf hp
  | _ => exact hk

theorem keepsAllBut_draws {n : Nat} (hf : Part.model ∈ ps) (h : keepsAllBut ps s u) :
    keepsAllBut ps s { u with draws := n } := by
  intro p hp
  have hk := h p hp
  cases p with
  | model => exact absurd hf hp
  | _ => exact hk

/-- A part that is the same after all need not be named. -/
theorem keepsAllBut_erase {p : Part} (hp : p.same s u) (h : keepsAllBut ps s u) :
    keepsAllBut (ps.erase p) s u := by
  intro q hq
  by_cases hqp : q = p
  · exact hqp ▸ hp
  · exact h q (mt (List.mem_erase_of_ne hqp).2 hq)

theorem keepsAllBut_transmitted (hl : Part.line k ∈ ps) (ht : Part.trace ∈ ps)
    (h : keepsAllBut ps s u) : keepsAllBut ps s (transmitted k b u) :=
  keepsAllBut_emit ht (keepsAllBut_setLine hl h)

/-- A line's completion writes its registers and the trace, and draws a byte where none is known. -/
theorem keepsAllBut_lineComplete (hl : Part.line k ∈ ps) (ht : Part.trace ∈ ps)
    (hm : Part.model ∈ ps) (h : keepsAllBut ps s u) : keepsAllBut ps s (lineComplete k u) := by
  unfold lineComplete
  split
  · exact keepsAllBut_transmitted hl ht h
  · exact keepsAllBut_transmitted hl ht (keepsAllBut_draws hm h)

theorem keepsAllBut_lineDeliver {received newest : Bool} (hl : Part.line k ∈ ps)
    (ht : Part.trace ∈ ps) (h : keepsAllBut ps s u) :
    keepsAllBut ps s (lineDeliver k b received newest u) := by
  unfold lineDeliver
  split
  · exact keepsAllBut_emit ht (keepsAllBut_setLine hl h)
  · exact keepsAllBut_emit ht h

end

/-! ### The checks of the serial commands (42_serial.md R181, R187, R189) -/

/-- `SER.WRITE` and M1 of a send put byte `b` in flight on line `k`. -/
def State.putInFlight (s : State) (k : Line) (b : Byte) : State :=
  s.setLine k { s.line k with txData := some b, txBusy := true }

section
variable {s : State} {k : Line} {b : ByteOp} {v : Byte}

theorem withLine_present {r : Result} (h : s.cfg.hasLine k = true) : withLine k s r = r := if_pos h

theorem writeLine_unconfigured {c : State → Result} (h : (s.line k).cfg = none) :
    writeLine k v s c = .fault (.lineUnconfig s.info k) := by
  simp [writeLine, h]

theorem writeLine_busy {c : State → Result} (h : (s.line k).cfg ≠ none)
    (hb : (s.line k).txBusy = true) : writeLine k v s c = .fault (.txBusy s.info k) := by
  simp [writeLine, h, hb]

theorem writeLine_passes {c : State → Result} (h : (s.line k).cfg ≠ none)
    (hb : (s.line k).txBusy = false) : writeLine k v s c = c (s.putInFlight k v) := by
  simp [writeLine, State.putInFlight, h, hb]

theorem exec_serWrite_present (hk : s.cfg.hasLine k = true) :
    exec (.serWrite k b) s = withByte b s fun v => writeLine k v s fun t => .next t.finish :=
  withLine_present hk

theorem exec_serSendb_present (hk : s.cfg.hasLine k = true) :
    exec (.serSendb k b) s =
      withByte b s fun v => writeLine k v s fun t => .next (t.setMicro (.sendb k .m2)) :=
  withLine_present hk

/-- M1 of `SER.SENDB` with all its checks passed. -/
theorem exec_serSendb_starts (hk : s.cfg.hasLine k = true) (hv : operandIs b s v)
    (hcfg : (s.line k).cfg ≠ none) (hb : (s.line k).txBusy = false) :
    exec (.serSendb k b) s = .next ((s.putInFlight k v).setMicro (.sendb k .m2)) := by
  rw [exec_serSendb_present hk, withByte_operand hv, writeLine_passes hcfg hb]

theorem exec_serSendb_busy (hk : s.cfg.hasLine k = true) (hv : operandIs b s v)
    (hcfg : (s.line k).cfg ≠ none) (hb : (s.line k).txBusy = true) :
    exec (.serSendb k b) s = .fault (.txBusy s.info k) := by
  rw [exec_serSendb_present hk, withByte_operand hv, writeLine_busy hcfg hb]

theorem State.putInFlight_line : (s.putInFlight k v).line k =
    { s.line k with txData := some v, txBusy := true } := State.setLine_line_same _ _ _

end

/-- Settles O37: both commands check the operand, then the line's configuration, then that no byte
is in flight, and write the same two registers. -/
theorem writesPutTheByteInFlight : Obligations.WritesPutTheByteInFlight := by
  intro s k b hk
  have hkeeps : ∀ v, keepsAllBut [.frame, .line k] s (s.putInFlight k v) := fun v =>
    keepsAllBut_setLine (by simp) (keepsAllBut_refl _ s)
  rw [exec_serWrite_present hk, exec_serSendb_present hk]
  refine ⟨?_, fun v hv => ?_⟩
  · rintro rfl hdl
    exact ⟨withByte_undef hdl, withByte_undef hdl⟩
  · rw [withByte_operand hv, withByte_operand hv]
    refine ⟨fun hcfg => ⟨writeLine_unconfigured hcfg, writeLine_unconfigured hcfg⟩,
      fun hcfg hb => ⟨writeLine_busy hcfg hb, writeLine_busy hcfg hb⟩, fun hcfg hb => ⟨?_, ?_⟩⟩
    · exact ⟨_, writeLine_passes hcfg hb, (State.finish_line _ k).trans State.putInFlight_line,
        nextCommand_finish rfl, keepsAllBut_finish (by simp) (hkeeps v)⟩
    · exact ⟨_, writeLine_passes hcfg hb, (State.setMicro_line _ _ k).trans State.putInFlight_line,
        goesOnAt_setMicro rfl, keepsAllBut_setMicro (by simp) (hkeeps v)⟩

/-- Settles O38: on a line that exists, each query and each clear is one micro-step. -/
theorem serialQueriesAndClears : Obligations.SerialQueriesAndClears := by
  intro s k hk
  have hlatch : ∀ v, keepsAllBut [.frame, .latch] s ({ s with dl := v } : State).finish := fun _ =>
    keepsAllBut_finish (by decide) (keepsAllBut_latch (by decide) (keepsAllBut_refl _ s))
  have hline : ∀ l, (s.setLine k l).finish.line k = l ∧
      keepsAllBut [.frame, .line k] s (s.setLine k l).finish := fun _ =>
    ⟨(State.finish_line _ k).trans (State.setLine_line_same _ _ _),
      keepsAllBut_finish (by simp) (keepsAllBut_setLine (by simp) (keepsAllBut_refl _ s))⟩
  refine ⟨?_, ?_, ?_, ?_, ?_⟩
  · exact ⟨_, withLine_present hk, rfl, nextCommand_finish rfl, hlatch _⟩
  · exact ⟨_, withLine_present hk, rfl, nextCommand_finish rfl, hlatch _⟩
  · exact ⟨_, withLine_present hk, rfl, nextCommand_finish rfl, hlatch _⟩
  · exact ⟨_, withLine_present hk, (hline _).1, nextCommand_finish rfl, (hline _).2⟩
  · exact ⟨_, withLine_present hk, (hline _).1, nextCommand_finish rfl, (hline _).2⟩

/-- Settles O39: on a line that exists, the one check of `SER.CONFIG` is that of mode and
multi-drop. -/
theorem serialConfigWritesTheRecord : Obligations.SerialConfigWritesTheRecord := by
  intro s k mode md baud dbl hk
  refine ⟨?_, fun hne => ?_⟩
  · rintro rfl rfl
    exact ⟨_, withLine_present hk, (State.finish_line _ k).trans (State.setLine_line_same _ _ _),
      nextCommand_finish rfl,
      keepsAllBut_finish (by simp) (keepsAllBut_setLine (by simp) (keepsAllBut_refl _ s))⟩
  · have hrefused : mode ≠ 1 ∨ md = true := by
      rcases not_and_or.1 hne with hmode | hmd
      · exact .inl hmode
      · exact .inr (Bool.eq_true_of_not_eq_false hmd)
    exact (withLine_present hk).trans (if_pos hrefused)

/-! ### The lines' agents (42_serial.md R194, R195) -/

section
variable {s : State} {k : Line} {b : Byte} {received newest : Bool}

theorem takeMove_lineTx (hk : s.cfg.hasLine k = true) (hb : (s.line k).txBusy = true) :
    takeMove (.lineTx k) s = .next (lineComplete k s) :=
  if_pos (by simp [moveEnabled, hk, hb])

theorem takeMove_lineRx (hk : s.cfg.hasLine k = true) :
    takeMove (.lineRx k b received newest) s = .next (lineDeliver k b received newest s) :=
  if_pos hk

/-- The completion sends the byte in flight. -/
theorem takeMove_lineTx_sends (hk : s.cfg.hasLine k = true) (hb : (s.line k).txBusy = true)
    (hdata : (s.line k).txData = some b) :
    takeMove (.lineTx k) s = .next (transmitted k b s) := by
  simp [takeMove_lineTx hk hb, lineComplete, hdata]

theorem transmitted_line :
    (transmitted k b s).line k = { s.line k with txBusy := false, ti := true } :=
  (State.emit_line _ _ k).trans (State.setLine_line_same _ _ _)

theorem lineDeliver_trace : (lineDeliver k b received newest s).trace = s.trace ++ [.rx k b] := by
  unfold lineDeliver; split <;> rfl

theorem lineDeliver_line_dropped (hcfg : (s.line k).cfg = none) (hr : received = false) :
    (lineDeliver k b received newest s).line k = s.line k := by
  simp [lineDeliver, hcfg, hr]

theorem lineDeliver_line_taken (h : (s.line k).cfg ≠ none ∨ received = true) :
    (lineDeliver k b received newest s).line k = receive (s.line k) b newest := by
  have htaken : ((s.line k).cfg.isSome || received) = true := by
    simpa [Option.isSome_iff_ne_none] using h
  rw [lineDeliver, if_pos htaken, State.emit_line, State.setLine_line_same]

theorem receive_ready {l : LineState} (h : l.ri = false) :
    receive l b newest = { l with rxData := some b, ri := true } := by
  simp [receive, h]

theorem receive_overrun {l : LineState} (h : l.ri = true) :
    receive l b newest = { l with rxData := if newest then some b else l.rxData } := by
  simp [receive, h]

end

/-- Settles O43: the completion sends `TX_DATA`, and the delivery takes the byte unless an
unconfigured line drops it. -/
theorem lineAgentsSendAndDeliver : Obligations.LineAgentsSendAndDeliver := by
  intro s k rest hr hk
  have hkeeps : keepsAllBut [.line k, .trace, .model] s (s.withPlan rest) :=
    keepsAllBut_plan (by simp) (keepsAllBut_refl _ s)
  refine ⟨fun b hp hb hdata => ?_, fun b received newest hp => ?_⟩
  · exact ⟨_, step_move hr hp (takeMove_lineTx_sends (s := s.withPlan rest) hk hb hdata),
      transmitted_line, rfl, keepsAllBut_transmitted (by simp) (by simp) hkeeps⟩
  · refine ⟨_, step_move hr hp (takeMove_lineRx (s := s.withPlan rest) hk), lineDeliver_trace,
      keepsAllBut_lineDeliver (by simp) (by simp) hkeeps,
      lineDeliver_line_dropped (s := s.withPlan rest),
      fun htaken hri => ?_, fun htaken hri => ?_⟩
    · exact (lineDeliver_line_taken (s := s.withPlan rest) htaken).trans (receive_ready hri)
    · exact (lineDeliver_line_taken (s := s.withPlan rest) htaken).trans (receive_overrun hri)

/-! ### One line's commands spare the other (42_serial.md R193) -/

section
variable {s t : State} {k j : Line}

theorem writeLine_line_other {v : Byte} {c : State → Result} (hj : j ≠ k)
    (hc : ∀ u w, c u = .next w → w.line j = u.line j) (h : writeLine k v s c = .next t) :
    t.line j = s.line j :=
  (hc _ _ (writeLine_next.1 h).2.2).trans (State.setLine_line_other _ _ _ _ hj)

theorem sendNext_line_other {p : SendPos} {more : SendPos → State → Result} {fin : State → Result}
    (hj : j ≠ k) (hm : ∀ q u w, more q u = .next w → w.line j = u.line j)
    (hf : ∀ u w, fin u = .next w → w.line j = u.line j) (h : sendNext k p s more fin = .next t) :
    t.line j = s.line j := by
  rcases sendNext_next h with ⟨-, -, h⟩ | ⟨-, -, h⟩ | ⟨-, h⟩
  · exact hm _ _ _ h
  · exact hm _ _ _ h
  · exact (hf _ _ h).trans (State.setLine_line_other _ _ _ _ hj)

theorem finish_keeps_line (h : Host.Outcome.next s.finish = (.next t : Result)) :
    t.line j = s.line j := by
  cases h; exact State.finish_line _ j

theorem setMicro_keeps_line {m : Micro}
    (h : Host.Outcome.next (s.setMicro m) = (.next t : Result)) : t.line j = s.line j := by
  cases h; exact State.setMicro_line _ m j

end

/-- Settles O44: a command of a line writes `DL` or that line's registers, and its agent writes them
and the trace. -/
theorem linesShareNoState : Obligations.LinesShareNoState := by
  intro s t k j hj
  have hother : ∀ l, (s.setLine k l).line j = s.line j := fun l =>
    State.setLine_line_other _ _ _ l hj
  refine ⟨fun i b mode md baud dbl hi h => ?_, fun p h => ?_, ?_, fun b received newest => ?_⟩
  · rcases hi with rfl | rfl | rfl | rfl | rfl | rfl | rfl | rfl
    · obtain ⟨_, -, h⟩ := withByte_next.1 (withLine_next.1 h).2
      exact writeLine_line_other hj (fun _ _ => finish_keeps_line) h
    · exact (finish_keeps_line (withLine_next.1 h).2).trans rfl
    · exact (finish_keeps_line (withLine_next.1 h).2).trans rfl
    · exact (finish_keeps_line (withLine_next.1 h).2).trans (hother _)
    · exact (finish_keeps_line (withLine_next.1 h).2).trans rfl
    · exact (finish_keeps_line (withLine_next.1 h).2).trans (hother _)
    · have h := (withLine_next.1 h).2
      split at h
      · cases h
      · exact (finish_keeps_line h).trans (hother _)
    · obtain ⟨_, -, h⟩ := withByte_next.1 (withLine_next.1 h).2
      exact writeLine_line_other hj (fun _ _ => setMicro_keeps_line) h
  · simp only [resume] at h
    exact sendNext_line_other hj (fun _ _ _ => setMicro_keeps_line) (fun _ _ => finish_keeps_line) h
  · exact keepsAllBut_lineComplete (by simp) (by simp) (by simp) (keepsAllBut_refl _ s)
  · exact keepsAllBut_lineDeliver (by simp) (by simp) (keepsAllBut_refl _ s)

end Sys2Proof.Machine

namespace Sys2Proof.Machine

/-! ### A send, micro-step by micro-step (42_serial.md R187) -/

/-- The frame goes on at micro-state `m`. -/
def Ctx.goOn (m : Micro) (c : Ctx) : Ctx := { c with micro := some m }

/-- With the parameters `cfg`, the micro-states `pos` run M2 and M3 of a send on line `k` and leave
the frame as `done` has it. `SER.SENDB` itself is one such sequence, the sends nested in
`ECHO.ONBYTE` and `ECHO.REPLAY` are others (45_echo.md R252, R256). -/
structure SendsAs (cfg : Params) (k : Line) (pos : SendPos → Micro) (done : Ctx → Ctx) : Prop where
  resume : ∀ p s, s.cfg = cfg → resume (pos p) s =
    sendNext k p s (fun q t => .next (t.setMicro (pos q))) fun t => .next (t.setCtx (done t.ctx))
  done : ∀ c m, done { c with micro := m } = done c

theorem sendsAs_sendb (cfg : Params) (k : Line) : SendsAs cfg k (.sendb k) Ctx.advance :=
  ⟨fun _ _ _ => rfl, fun _ _ => rfl⟩

theorem sendsAs_onbyte (cfg : Params) (start : Byte) (len i : Nat) :
    SendsAs cfg cfg.echoLine (fun q => .onbyte start len (.e2Send i q))
      (Ctx.goOn (.onbyte start len (.e3 i))) :=
  ⟨fun _ _ h => h ▸ rfl, fun _ _ => rfl⟩

theorem sendsAs_replay (cfg : Params) (j : Nat) :
    SendsAs cfg cfg.echoLine (fun q => .replay (.p3Send j q))
      (Ctx.goOn (.replay (.p3 (j + 1)))) :=
  ⟨fun _ _ h => h ▸ rfl, fun _ _ => rfl⟩

theorem State.setCtx_self (s : State) : s.setCtx s.ctx = s := by
  obtain ⟨cfg, rom, main, handlers⟩ := s
  cases handlers <;> rfl

theorem setMicro_eq_self {s : State} {m : Micro} (h : s.ctx.micro = some m) : s.setMicro m = s := by
  rw [State.setMicro, ← h]
  exact s.setCtx_self

section
variable {cfg : Params} {k : Line} {pos : SendPos → Micro} {done : Ctx → Ctx} {s : State}

theorem cpuStep_send_holds (hs : SendsAs s.cfg k pos done) (hm : s.ctx.micro = some (pos .m2))
    (hti : (s.line k).ti = false) : cpuStep s = .next s := by
  rw [cpuStep_resume hm, hs.resume _ _ rfl]
  simp [sendNext, hti, setMicro_eq_self hm]

theorem cpuStep_send_m2 (hs : SendsAs s.cfg k pos done) (hm : s.ctx.micro = some (pos .m2))
    (hti : (s.line k).ti = true) : cpuStep s = .next (s.setMicro (pos .m3)) := by
  rw [cpuStep_resume hm, hs.resume _ _ rfl, sendNext, if_pos hti]

theorem cpuStep_send_m3 (hs : SendsAs s.cfg k pos done) (hm : s.ctx.micro = some (pos .m3)) :
    cpuStep s = .next ((s.setLine k { s.line k with ti := false }).setCtx (done s.ctx)) := by
  rw [cpuStep_resume hm, hs.resume _ _ rfl]
  rfl

end

/-- A CPU step that changes nothing, however often it is taken. -/
theorem leads_holding {s : State} (hr : s.running = true)
    (hold : ∀ plan, cpuStep (s.withPlan plan) = .next (s.withPlan plan)) (n : Nat)
    (rest : List Move) :
    Leads (List.replicate n .cpu) (s.withPlan (List.replicate n .cpu ++ rest))
      (s.withPlan rest) := by
  induction n with
  | zero => exact .refl hr
  | succ n ih =>
    have hfirst : Leads [.cpu] (s.withPlan (.cpu :: (List.replicate n .cpu ++ rest)))
        (s.withPlan (List.replicate n .cpu ++ rest)) := .cpu hr rfl (hold _)
    exact hfirst.trans ih

/-- Settles O42: in all three commands M2 with `TI` clear leaves the frame where it stands. -/
theorem sendbWithoutAcknowledgementHoldsForEver :
    Obligations.SendbWithoutAcknowledgementHoldsForEver := by
  intro s k m n hr hmicro hm hti
  have hold : ∃ pos done, SendsAs s.cfg k pos done ∧ m = pos .m2 := by
    rcases hm with rfl | ⟨rfl, ⟨start, len, i, rfl⟩ | ⟨j, rfl⟩⟩
    · exact ⟨_, _, sendsAs_sendb _ k, rfl⟩
    · exact ⟨_, _, sendsAs_onbyte _ start len i, rfl⟩
    · exact ⟨_, _, sendsAs_replay _ j, rfl⟩
  obtain ⟨pos, done, hsends, rfl⟩ := hold
  have hrun := leads_holding hr
    (fun plan => cpuStep_send_holds (s := s.withPlan plan) hsends hmicro hti) n []
  rw [List.append_nil] at hrun
  exact hrun.runs

/-! ### A send that nothing interrupts -/

/-- The parts that a send on line `k` writes. -/
abbrev sendParts (k : Line) : List Part := [.frame, .line k, .trace, .model]

/-- In `s`, the send on line `k` that began in `v` has its frame at `c` and the line's registers at
`l`, and has emitted `es`. -/
structure Sending (k : Line) (v : State) (c : Ctx) (l : LineState) (es : List Event) (s : State) :
    Prop where
  keeps : keepsAllBut (sendParts k) v s
  ctx : s.ctx = c
  line : s.line k = l
  trace : s.trace = v.trace ++ es

section
variable {k : Line} {v s : State} {c : Ctx} {l : LineState} {es : List Event} {b : Byte}
  {pos : SendPos → Micro} {done : Ctx → Ctx} {rest : List Move}

theorem Sending.cfg (h : Sending k v c l es s) : s.cfg = v.cfg := (h.keeps .run (by simp)).1

/-- M1: the byte is in flight. -/
theorem Sending.begin (m : Micro) (plan : List Move) :
    Sending k v { v.ctx with micro := some m } { v.line k with txData := some b, txBusy := true } []
      (((v.putInFlight k b).setMicro m).withPlan plan) where
  keeps := keepsAllBut_plan (by simp) (keepsAllBut_setMicro (by simp)
    (keepsAllBut_setLine (by simp) (keepsAllBut_refl _ v)))
  ctx := State.setMicro_ctx _ m
  line := (State.setMicro_line _ m k).trans State.putInFlight_line
  trace := (List.append_nil _).symm

/-- The line's completion. -/
theorem Sending.complete (h : Sending k v c l es s) (hk : v.cfg.hasLine k = true)
    (hb : l.txBusy = true) (hdata : l.txData = some b) (hr : s.running = true)
    (hp : s.plan = .lineTx k :: rest) :
    ∃ t, Leads [.lineTx k] s t ∧
      Sending k v c { l with txBusy := false, ti := true } (es ++ [.tx k b]) t := by
  obtain ⟨hkeeps, rfl, rfl, htrace⟩ := h
  have hcfg : s.cfg = v.cfg := (hkeeps .run (by simp)).1
  have hstep := takeMove_lineTx_sends (s := s.withPlan rest) (hcfg ▸ hk) hb hdata
  refine ⟨_, .move hr hp hstep rfl hr, ?_, rfl, transmitted_line, ?_⟩
  · exact keepsAllBut_transmitted (by simp) (by simp) (keepsAllBut_plan (by simp) hkeeps)
  · exact (congrArg (· ++ [.tx k b]) htrace).trans (List.append_assoc ..)

/-- M2 with `TI` set. -/
theorem Sending.acknowledged (hs : SendsAs v.cfg k pos done)
    (h : Sending k v { c with micro := some (pos .m2) } l es s) (hti : l.ti = true)
    (hr : s.running = true) (hp : s.plan = .cpu :: rest) :
    ∃ t, Leads [.cpu] s t ∧ Sending k v { c with micro := some (pos .m3) } l es t := by
  have hstep := cpuStep_send_m2 (s := s.withPlan rest) (h.cfg.symm ▸ hs) (congrArg Ctx.micro h.ctx)
    (h.line.symm ▸ hti)
  refine ⟨_, .cpu hr hp hstep, ?_, setMicro_ctx_of h.ctx, ?_, h.trace⟩
  · exact keepsAllBut_setMicro (by simp) (keepsAllBut_plan (by simp) h.keeps)
  · exact (State.setMicro_line _ _ k).trans h.line

/-- M3: `TI` is cleared. -/
theorem Sending.cleared (hs : SendsAs v.cfg k pos done)
    (h : Sending k v { c with micro := some (pos .m3) } l es s) (hr : s.running = true)
    (hp : s.plan = .cpu :: rest) :
    ∃ t, Leads [.cpu] s t ∧ Sending k v (done c) { l with ti := false } es t := by
  have hstep := cpuStep_send_m3 (s := s.withPlan rest) (h.cfg.symm ▸ hs) (congrArg Ctx.micro h.ctx)
  refine ⟨_, .cpu hr hp hstep, ?_, ?_, ?_, h.trace⟩
  · exact keepsAllBut_setCtx (by simp) (keepsAllBut_setLine (by simp)
      (keepsAllBut_plan (by simp) h.keeps))
  · rw [State.setCtx_ctx, State.withPlan_ctx, h.ctx, hs.done]
  · rw [State.setCtx_line, State.setLine_line_same, State.withPlan_line, h.line]

/-- M2 and M3 with `TI` set. -/
theorem Sending.ended (hs : SendsAs v.cfg k pos done)
    (h : Sending k v { c with micro := some (pos .m2) } l es s) (hti : l.ti = true)
    (hr : s.running = true) (hp : s.plan = .cpu :: .cpu :: rest) :
    ∃ t, Leads [.cpu, .cpu] s t ∧ Sending k v (done c) { l with ti := false } es t := by
  obtain ⟨u, hu, hsent⟩ := h.acknowledged hs hti hr hp
  obtain ⟨t, ht, hdone⟩ := hsent.cleared hs hu.running
    (List.append_cancel_left (as := [.cpu]) (hu.plan.symm.trans hp))
  exact ⟨t, hu.trans ht, hdone⟩

/-- A send that nothing interrupts, on an idle line; M1 begins it in `v`. -/
theorem leads_send (hs : SendsAs v.cfg k pos done) (hk : v.cfg.hasLine k = true)
    (hr : s.running = true) (hp : s.plan = sendMoves k ++ rest)
    (hstart : ∀ plan, cpuStep (s.withPlan plan) =
      .next (((v.putInFlight k b).setMicro (pos .m2)).withPlan plan)) :
    ∃ t, Leads (sendMoves k) s t ∧ Sending k v (done v.ctx)
      { v.line k with txData := some b, txBusy := false, ti := false } [.tx k b] t := by
  have hstarted := Leads.cpu hr hp (hstart _)
  obtain ⟨u, hu, hsent⟩ := (Sending.begin (pos .m2) _).complete hk rfl rfl hstarted.running rfl
  obtain ⟨t, ht, hdone⟩ := hsent.ended hs rfl hu.running
    (List.append_cancel_left (as := [.lineTx k]) hu.plan.symm)
  exact ⟨t, hstarted.trans (hu.trans ht), hdone⟩

/-- A send on a line whose `TI` is stale: M2 takes the flag for its own acknowledgement, and the
byte is still in flight at the end (42_serial.md R188). -/
theorem leads_send_stale (hs : SendsAs v.cfg k pos done) (hti : (v.line k).ti = true)
    (hr : s.running = true) (hp : s.plan = .cpu :: .cpu :: .cpu :: rest)
    (hstart : ∀ plan, cpuStep (s.withPlan plan) =
      .next (((v.putInFlight k b).setMicro (pos .m2)).withPlan plan)) :
    ∃ t, Leads [.cpu, .cpu, .cpu] s t ∧ Sending k v (done v.ctx)
      { v.line k with txData := some b, txBusy := true, ti := false } [] t := by
  have hstarted := Leads.cpu hr hp (hstart _)
  obtain ⟨t, ht, hdone⟩ := (Sending.begin (pos .m2) _).ended hs hti hstarted.running rfl
  exact ⟨t, hstarted.trans ht, hdone⟩

end

/-- Settles O41: M2 goes on at `TI`, which either the completion of this send has set or an earlier
one has left. -/
theorem sendbSendsItsByte : Obligations.SendbSendsItsByte := by
  intro s w k b v hr hw hd hk hv hcfg hb
  have hsends := sendsAs_sendb s.cfg k
  have hstart : ∀ ms plan, cpuStep ((s.withPlan ms).withPlan plan) =
      .next (((s.putInFlight k v).setMicro (.sendb k .m2)).withPlan plan) := fun ms plan =>
    (cpuStep_exec (s := s.withPlan plan) hw hd).trans
      (exec_serSendb_starts (s := s.withPlan plan) hk hv hcfg hb)
  refine ⟨fun _ => ?_, fun hti => ?_⟩
  · obtain ⟨t, hrun, h⟩ := leads_send (s := s.withPlan (sendMoves k)) (rest := []) hsends hk hr rfl
      (hstart _)
    exact ⟨t, hrun.runs, h.trace, h.line, h.ctx, h.keeps⟩
  · obtain ⟨t, hrun, h⟩ := leads_send_stale (s := s.withPlan [.cpu, .cpu, .cpu]) (rest := []) hsends
      hti hr rfl (hstart _)
    refine ⟨t, hrun.runs, h.line, h.ctx, keepsAllBut_erase (p := .trace) ?_ h.keeps, fun x => ?_⟩
    · exact h.trace.trans (List.append_nil _)
    · exact exec_serSendb_busy (h.cfg.symm ▸ hk) (.inl rfl) (by rw [h.line]; exact hcfg)
        (by rw [h.line])

end Sys2Proof.Machine

namespace Sys2Proof.Machine

/-! ### What T_RUN, TX_BUSY and RI promise (43_timer_tick.md R213; 10_state.md R38, R45) -/

/-- A running timer is configured, and each line is sound. -/
def State.promises (s : State) : Prop := s.timerSound ∧ s.line0.sound ∧ s.line1.sound

/-- From a state in which the promises hold, `c` answers only such states. After an update that
writes neither `TMR_CFG`, `T_RUN` nor a line, `State.promises` is by definition the same proposition
as before, so that `hs : s.promises` proves it. -/
def KeepsPromises (c : State → Result) : Prop :=
  ∀ {s t : State}, c s = .next t → s.promises → t.promises

section
variable {s t : State} {k : Line}

theorem State.promises.line_sound (hs : s.promises) (k : Line) : (s.line k).sound := by
  obtain ⟨-, hline0, hline1⟩ := hs
  cases k
  · exact hline0
  · exact hline1

theorem promises_setLine {l : LineState} (hs : s.promises) (hl : l.sound) :
    (s.setLine k l).promises := by
  obtain ⟨htimer, hline0, hline1⟩ := hs
  cases k
  · exact ⟨htimer, hl, hline1⟩
  · exact ⟨htimer, hline0, hl⟩

theorem promises_clearTi (hs : s.promises) :
    (s.setLine k { s.line k with ti := false }).promises :=
  promises_setLine hs (hs.line_sound k)

theorem receive_sound {l : LineState} {b : Byte} {newest : Bool} (h : l.sound) :
    (receive l b newest).sound := by
  obtain ⟨htx, hrx⟩ := h
  unfold receive
  split
  · cases newest
    · exact ⟨htx, hrx⟩
    · exact ⟨htx, fun _ => rfl⟩
  · exact ⟨htx, fun _ => rfl⟩

/-! ### The shared micro-sequences -/

theorem keepsPromises_finish : KeepsPromises fun t => .next t.finish := by
  rintro s _ ⟨⟩ hs; exact hs

theorem keepsPromises_setMicro {m : Micro} : KeepsPromises fun t => .next (t.setMicro m) := by
  rintro s _ ⟨⟩ hs; exact hs

theorem writeLine_promises {b : Byte} {c : State → Result} (hc : KeepsPromises c)
    (h : writeLine k b s c = .next t) (hs : s.promises) : t.promises := by
  obtain ⟨hcfg, -, h⟩ := writeLine_next.1 h
  have hrx := (hs.line_sound k).2
  exact hc h (promises_setLine hs ⟨fun _ => ⟨rfl, hcfg⟩, hrx⟩)

variable {fin : State → Result}

theorem sendNext_promises {p : SendPos} {more : SendPos → State → Result}
    (hm : ∀ q, KeepsPromises (more q)) (hf : KeepsPromises fin)
    (h : sendNext k p s more fin = .next t) (hs : s.promises) : t.promises := by
  rcases sendNext_next h with ⟨-, -, h⟩ | ⟨-, -, h⟩ | ⟨-, h⟩
  · exact hm _ h hs
  · exact hm _ h hs
  · exact hf h (promises_clearTi hs)

theorem saveNext_promises {n : Nat} {p : SavePos} {more : SavePos → State → Result}
    (hm : ∀ q, KeepsPromises (more q)) (hf : KeepsPromises fin)
    (h : saveNext n p s more fin = .next t) (hs : s.promises) : t.promises := by
  rcases saveNext_next h with ⟨-, -, h⟩ | ⟨-, -, h⟩ | ⟨_, _, _, -, -, -, -, -, h⟩ | ⟨_, -, -, h⟩ |
    ⟨_, -, -, -, h⟩ | ⟨_, -, -, -, h⟩
  · exact hm _ h hs
  · exact hm _ h hs
  · exact hm _ h hs
  · exact hm _ h hs
  · exact hm _ h hs
  · exact hf h hs

theorem loadStart_promises {more : LoadPos → State → Result} (hm : ∀ q, KeepsPromises (more q))
    (hf : KeepsPromises fin) (h : loadStart s more fin = .next t) (hs : s.promises) :
    t.promises := by
  rcases (loadStart_next h).2 with ⟨-, h⟩ | ⟨-, h⟩
  · exact hf h hs
  · exact hm _ h hs

theorem loadNext_promises {p : LoadPos} {more : LoadPos → State → Result}
    (hm : ∀ q, KeepsPromises (more q)) (hf : KeepsPromises fin)
    (h : loadNext p s more fin = .next t) (hs : s.promises) : t.promises := by
  rcases loadNext_next h with ⟨_, -, h⟩ | ⟨_, _, -, -, _, h⟩ | ⟨_, _, -, -, -, h⟩ |
    ⟨_, _, -, -, -, -, h⟩
  · exact hf h hs
  · exact hm _ h hs
  · exact hf h hs
  · exact hm _ h hs

/-! ### The commands -/

theorem lightUp_promises (hs : s.promises) : (lightUp s).promises := by
  unfold lightUp
  cases s.cfg.ledVariant <;> exact hs

theorem ledTick_promises (hs : s.promises) : (ledTick s).promises := by
  unfold ledTick
  cases s.ledState with
  | lit => simp only; split <;> exact hs
  | unlit =>
    simp only
    split
    · exact lightUp_promises (s := { s with offRem := s.offRem - 1 }) hs
    · exact hs

theorem ledArm_promises (hs : s.promises) : (ledArm s).promises := by
  unfold ledArm
  cases s.cfg.ledVariant <;> exact hs

/-- The first micro-step of every command: `TMR.START` checks the configuration it relies on,
`TMR.CONFIG` and `SER.CONFIG` write one, and the writes to a line go through `writeLine`. -/
theorem exec_promises (i : Instr) : KeepsPromises (exec i) := by
  intro s t h hs
  cases i with
  | nop => exact keepsPromises_finish h hs
  | idle => cases h; exact hs
  | reti => obtain ⟨_, _, -, rfl⟩ := leaveHandler_next.1 h; exact hs
  | flSetaddr a => cases h; exact hs
  | flErase =>
    obtain ⟨a, -, -, h⟩ := withCursor_next.1 h
    cases (flashIdle_next.1 h).2
    exact hs
  | flProg b => obtain ⟨_, _, -, -, -, -, rfl⟩ := programM1_next.1 h; exact hs
  | flRead =>
    simp only [exec, execFlRead] at h
    obtain ⟨_, -, -, -, ⟨⟩⟩ := readCursor_next.1 h
    exact hs
  | nvWrb b => obtain ⟨_, _, -, -, -, -, rfl⟩ := programM1_next.1 h; exact hs
  | nvRdb =>
    simp only [exec, execNvRdb] at h
    obtain ⟨_, -, -, -, ⟨⟩⟩ := readCursor_next.1 h
    exact hs
  | nvSave n =>
    simp only [exec, execNvSave] at h
    cases (saveStart_next.1 h).2
    exact hs
  | nvLoad => exact loadStart_promises (fun _ => keepsPromises_setMicro) keepsPromises_finish h hs
  | tmrConfig mode gate src =>
    obtain ⟨-, hlines⟩ := hs
    simp only [exec, execTmrConfig] at h
    split at h
    · cases h
    · cases h; exact ⟨fun _ => rfl, hlines⟩
  | tmrReload v => cases h; exact hs
  | tmrStart =>
    obtain ⟨-, hlines⟩ := hs
    simp only [exec, execTmrStart] at h
    split at h
    · cases h
    · next hcfg => cases h; exact ⟨fun _ => Option.isSome_of_eq_some hcfg, hlines⟩
  | tmrStop =>
    obtain ⟨-, hlines⟩ := hs
    cases h
    exact ⟨nofun, hlines⟩
  | serWrite k b =>
    obtain ⟨_, -, h⟩ := withByte_next.1 (withLine_next.1 h).2
    exact writeLine_promises keepsPromises_finish h hs
  | serRead k => cases (withLine_next.1 h).2; exact hs
  | serTxdone k => cases (withLine_next.1 h).2; exact hs
  | serClrtx k => cases (withLine_next.1 h).2; exact promises_clearTi hs
  | serRxrdy k => cases (withLine_next.1 h).2; exact hs
  | serClrrx k =>
    have htx := (hs.line_sound k).1
    exact keepsPromises_finish (withLine_next.1 h).2 (promises_setLine hs ⟨htx, nofun⟩)
  | serConfig k mode md baud dbl =>
    obtain ⟨htx, hrx⟩ := hs.line_sound k
    have h := (withLine_next.1 h).2
    split at h
    · cases h
    · exact keepsPromises_finish h (promises_setLine hs ⟨fun hb => ⟨(htx hb).1, rfl⟩, hrx⟩)
  | serSendb k b =>
    obtain ⟨_, -, h⟩ := withByte_next.1 (withLine_next.1 h).2
    exact writeLine_promises keepsPromises_setMicro h hs
  | intEnall => cases h; exact hs
  | intDisall => cases h; exact hs
  | intEnsrc src => cases (withSource_next.1 h).2; exact hs
  | intDissrc src => cases (withSource_next.1 h).2; exact hs
  | ledInit => cases h; exact ledArm_promises hs
  | ledAdvance => cases h; exact ledTick_promises hs
  | echoOnbyte b =>
    obtain ⟨_, -, h⟩ := withByte_next.1 h
    split at h
    · cases h; exact hs
    · split at h
      · cases h
      · split at h
        · cases h
        · cases h; exact hs
  | echoReplay =>
    simp only [exec, execEchoReplay] at h
    split at h
    · cases h
    · cases h; exact hs

theorem onbyteNext_promises {start : Byte} {len : Nat} (p : EchoPos) :
    KeepsPromises (onbyteNext start len p) := by
  intro s t h hs
  simp only [onbyteNext, echoAt] at h
  cases p with
  | e2 i => exact writeLine_promises keepsPromises_setMicro h hs
  | e2Send i q =>
    exact sendNext_promises (fun _ => keepsPromises_setMicro) keepsPromises_setMicro h hs
  | e3 i => cases h; exact hs
  | e4 => cases (saveStart_next.1 h).2; exact hs
  | e4Save q =>
    exact saveNext_promises (fun _ => keepsPromises_setMicro) keepsPromises_setMicro h hs
  | e5 => cases h; exact hs

theorem replayNext_promises (p : ReplayPos) : KeepsPromises (replayNext p) := by
  intro s t h hs
  cases p with
  | p1 => exact loadStart_promises (fun _ => keepsPromises_setMicro) keepsPromises_setMicro h hs
  | p1Load q =>
    simp only [replayNext] at h
    exact loadNext_promises (fun _ => keepsPromises_setMicro) keepsPromises_setMicro h hs
  | p2 =>
    simp only [replayNext, replayAt] at h
    split at h <;> exact keepsPromises_setMicro h hs
  | p3 j =>
    simp only [replayNext, replayByte] at h
    split at h
    · exact keepsPromises_setMicro h hs
    · split at h
      · split at h
        · exact writeLine_promises keepsPromises_setMicro h hs
        · exact keepsPromises_setMicro h hs
      · cases h
  | p3Send j q =>
    simp only [replayNext] at h
    exact sendNext_promises (fun _ => keepsPromises_setMicro) keepsPromises_setMicro h hs
  | p4 => cases h; exact hs

theorem holdFlash_promises : KeepsPromises holdFlash := by
  intro s t h hs
  unfold holdFlash at h
  split at h <;> cases h <;> exact hs

/-- A later micro-step writes a line only as part of a send. -/
theorem resume_promises (m : Micro) : KeepsPromises (resume m) := by
  intro s t h hs
  cases m with
  | sendb k p =>
    simp only [resume] at h
    exact sendNext_promises (fun _ => keepsPromises_setMicro) keepsPromises_finish h hs
  | flErase => exact holdFlash_promises h hs
  | flProg => exact holdFlash_promises h hs
  | nvWrb =>
    simp only [resume, wrbM2] at h
    split at h <;> cases h <;> exact hs
  | nvSave n p =>
    simp only [resume] at h
    exact saveNext_promises (fun _ => keepsPromises_setMicro) keepsPromises_finish h hs
  | nvLoad p =>
    simp only [resume] at h
    exact loadNext_promises (fun _ => keepsPromises_setMicro) keepsPromises_finish h hs
  | onbyte start len p => exact onbyteNext_promises p h hs
  | replay p => exact replayNext_promises p h hs

theorem cpuStep_promises : KeepsPromises cpuStep := by
  intro s t h hs
  rcases cpuStep_next h with ⟨m, -, h⟩ | ⟨-, _, i, -, -, -, h⟩
  · exact resume_promises m h hs
  · exact exec_promises i h hs

/-! ### The other agents -/

theorem transmitted_promises {b : Byte} (hs : s.promises) : (transmitted k b s).promises := by
  have hrx := (hs.line_sound k).2
  exact promises_setLine hs ⟨nofun, hrx⟩

theorem lineComplete_promises (hs : s.promises) : (lineComplete k s).promises := by
  unfold lineComplete
  split
  · exact transmitted_promises hs
  · exact transmitted_promises (s := { s with draws := s.draws + 1 }) hs

theorem lineDeliver_promises {b : Byte} {received newest : Bool} (hs : s.promises) :
    (lineDeliver k b received newest s).promises := by
  unfold lineDeliver
  split
  · exact promises_setLine hs (receive_sound (hs.line_sound k))
  · exact hs

theorem flashComplete_promises (hs : s.promises) : (flashComplete s).promises := by
  unfold flashComplete
  split <;> exact hs

/-- A reset stops the timer and clears `TX_BUSY` and `RI`. -/
theorem powerCycle_promises (s : State) : (powerCycle s).promises :=
  ⟨nofun, ⟨nofun, nofun⟩, nofun, nofun⟩

theorem takeMove_promises (m : Move) : KeepsPromises (takeMove m) := by
  intro s t h hs
  rcases takeMove_next h with h | ⟨_, -, -, h⟩ | ⟨-, -, rfl⟩ | ⟨_, -, -, -, rfl⟩ |
    ⟨_, _, _, _, -, -, rfl⟩ | ⟨-, -, rfl⟩ | ⟨-, rfl⟩
  · exact cpuStep_promises h hs
  · obtain ⟨_, -, -, -, -, -, -, rfl⟩ := enterSource_next h
    exact hs
  · exact hs
  · exact lineComplete_promises hs
  · exact lineDeliver_promises hs
  · exact flashComplete_promises hs
  · exact powerCycle_promises s

/-- Taking the move off the plan and recording a stop leave timer and lines alone. -/
theorem step_promises : KeepsPromises step := by
  intro s t h hs
  obtain ⟨-, -, hm | ⟨_, -, rfl⟩ | ⟨_, -, rfl⟩⟩ := step_next h
  · exact takeMove_promises s.move hm hs
  · exact hs
  · exact hs

end

/-- Settles O36: the timer starts and a byte is sent only past the check of the configuration, which
no step takes away, and whatever sets `RI` writes `RX_DATA`; a reset clears all three flags. -/
theorem peripheralFlagsKeepTheirPromise : Obligations.PeripheralFlagsKeepTheirPromise :=
  fun _ _ htimer hline0 hline1 h => step_promises h ⟨htimer, hline0, hline1⟩

/-! ### The timer's registers (43_timer_tick.md R211-R214) -/

section
variable {s u : State} {ps : List Part}

theorem keepsAllBut_timer {cfg : Option TmrCfg} {count : Half} {run flag : Bool}
    (hf : Part.timer ∈ ps) (h : keepsAllBut ps s u) :
    keepsAllBut ps s { u with tmrCfg := cfg, tCnt := count, tRun := run, tf := flag } := by
  intro p hp
  have hk := h p hp
  cases p with
  | timer => exact absurd hf hp
  | _ => exact hk

/-- A timer command ends with the timer's registers as it writes them and nothing else changed. -/
theorem keepsAllBut_finish_timer {cfg : Option TmrCfg} {count : Half} {run : Bool} :
    keepsAllBut [.frame, .timer] s
      ({ s with tmrCfg := cfg, tCnt := count, tRun := run } : State).finish :=
  keepsAllBut_finish (by decide) (keepsAllBut_timer (by decide) (keepsAllBut_refl _ s))

theorem exec_tmrConfig_refused {mode : BitVec 2} {gate src : Bool}
    (h : ¬(mode = 1 ∧ gate = false ∧ src = false)) :
    exec (.tmrConfig mode gate src) s = .refused (.configNotModelled s.info) := by
  have hrefused : mode ≠ 1 ∨ gate = true ∨ src = true := by
    rcases not_and_or.1 h with hmode | h
    · exact .inl hmode
    · rcases not_and_or.1 h with hgate | hsrc
      · exact .inr (.inl (Bool.eq_true_of_not_eq_false hgate))
      · exact .inr (.inr (Bool.eq_true_of_not_eq_false hsrc))
  exact if_pos hrefused

theorem exec_tmrStart_unconfigured (h : s.tmrCfg = none) :
    exec .tmrStart s = .fault (.timerUnconfig s.info) := by
  simp [exec, execTmrStart, h]

theorem exec_tmrStart_starts (h : s.tmrCfg ≠ none) :
    exec .tmrStart s = .next ({ s with tRun := true } : State).finish := by
  obtain ⟨c, hc⟩ := Option.ne_none_iff_exists'.1 h
  simp [exec, execTmrStart, hc]

end

/-- Settles O34: past the check of `TMR.CONFIG` and that of `TMR.START`, each command is one
micro-step that writes one register. -/
theorem timerCommandsWriteTheirRegister : Obligations.TimerCommandsWriteTheirRegister := by
  refine ⟨fun s => ?_, fun s mode gate src => exec_tmrConfig_refused, fun s v => ?_,
    fun s => exec_tmrStart_unconfigured, fun s hcfg => ?_, fun s => ?_⟩
  · exact ⟨_, rfl, rfl, rfl, rfl, rfl, nextCommand_finish rfl, keepsAllBut_finish_timer⟩
  · exact ⟨_, rfl, rfl, rfl, rfl, rfl, nextCommand_finish rfl, keepsAllBut_finish_timer⟩
  · exact ⟨_, exec_tmrStart_starts hcfg, rfl, rfl, rfl, rfl, nextCommand_finish rfl,
      keepsAllBut_finish_timer⟩
  · exact ⟨_, rfl, rfl, rfl, rfl, rfl, nextCommand_finish rfl, keepsAllBut_finish_timer⟩

/-! ### The timer's events (43_timer_tick.md R216, R217) -/

/-- The number of events after which a timer that stands at `count` expires (R217). -/
def eventsToExpiry (count : Half) : Nat := if count = 0 then 65536 else count.toNat

/-- `s` after `k` timer events, of which at most the last is an expiry. -/
def State.ticked (s : State) (k : Nat) : State :=
  { s with
    tCnt := s.tCnt - BitVec.ofNat 16 k
    tf := s.tf || decide (k = eventsToExpiry s.tCnt) }

section
variable {s : State} {k : Nat}

theorem eventsToExpiry_pos (count : Half) : 0 < eventsToExpiry count := by
  unfold eventsToExpiry
  split
  · decide
  · next h => exact Nat.pos_of_ne_zero fun h0 => h (BitVec.eq_of_toNat_eq h0)

/-- Counting down, 65536 of 0 included, reaches 0 at the last event and not before. -/
theorem count_sub_eq_zero_iff {count : Half} (h : 1 ≤ k) (hk : k ≤ eventsToExpiry count) :
    count - BitVec.ofNat 16 k = 0 ↔ k = eventsToExpiry count := by
  have hlt := count.isLt
  by_cases h0 : count = 0
  · subst h0
    simp only [eventsToExpiry, if_pos] at hk ⊢
    bv_omega
  · simp only [eventsToExpiry, if_neg h0] at hk ⊢
    bv_omega

theorem State.ticked_zero (s : State) : s.ticked 0 = s := by
  simp [State.ticked, (eventsToExpiry_pos s.tCnt).ne]

/-- One more event, before the expiry. -/
theorem timerClock_ticked (hk : k < eventsToExpiry s.tCnt) :
    timerClock (s.ticked k) = s.ticked (k + 1) := by
  have hcount : (s.ticked k).tCnt - 1 = s.tCnt - BitVec.ofNat 16 (k + 1) := by
    rw [BitVec.ofNat_add, ← BitVec.sub_sub]; rfl
  have hzero := count_sub_eq_zero_iff (Nat.succ_pos k) hk
  simp only [timerClock, hcount, hzero]
  simp [State.ticked, hk.ne, Bool.or_comm]

theorem takeMove_timer (h : s.tRun = true) : takeMove .timer s = .next (timerClock s) := if_pos h

theorem leads_timer (hr : s.running = true) (ht : s.tRun = true) (hk : k ≤ eventsToExpiry s.tCnt)
    (rest : List Move) :
    Leads (List.replicate k .timer) (s.withPlan (List.replicate k .timer ++ rest))
      ((s.ticked k).withPlan rest) := by
  induction k generalizing rest with
  | zero => rw [State.ticked_zero]; exact .refl hr
  | succ k ih =>
    have hbefore := ih (Nat.le_of_succ_le hk) (.timer :: rest)
    have hlast : Leads [.timer] ((s.ticked k).withPlan (.timer :: rest))
        ((s.ticked (k + 1)).withPlan rest) := by
      refine .move hr rfl ?_ rfl hr
      rw [← timerClock_ticked hk]
      exact takeMove_timer (s := (s.ticked k).withPlan rest) ht
    rw [List.replicate_succ', List.append_assoc]
    exact hbefore.trans hlast

end

/-- Settles O35: the plan's events are counted by `State.ticked`, up to and including the expiry. -/
theorem timerExpiresAfterItsCount : Obligations.TimerExpiresAfterItsCount := by
  intro s k hr ht _ hk
  have hrun := leads_timer hr ht hk []
  rw [List.append_nil] at hrun
  exact ⟨_, hrun.runs, rfl, rfl, rfl, ht, keepsAllBut_plan (by decide)
    (keepsAllBut_timer (by decide) (keepsAllBut_refl _ s))⟩

end Sys2Proof.Machine

namespace Sys2Proof.Machine

/-! ### One tick of the LED scheduler (44_led.md R231, R233) -/

/-- The end of a lit phase, with `OFF_REM` at `off`: `Unlit`, LED off, `LIT_REM` spent. -/
def State.unlight (s : State) (off : Half) : State :=
  { ({ s with ledState := .unlit, litRem := 0 } : State).setLed false with offRem := off }

/-- The beginning of a lit phase, with `LIT_REM` at `lit` and this `DUTY`: `Lit`, LED on. -/
def State.relight (s : State) (lit : Half) (duty : Duty) : State :=
  { ({ s with ledState := .lit } : State).setLed true with litRem := lit, duty := duty }

section
variable {s u : State}

/-- The event of `set_led` comes exactly when `LED_ON` changes. -/
theorem State.setLed_trace (s : State) (v : Bool) :
    (s.setLed v).trace = s.trace ++ if s.ledOn = v then [] else [.led (s.cfg.pin v)] := by
  show (if s.ledOn = v then s.trace else s.trace ++ [_]) = _
  split
  · exact (List.append_nil _).symm
  · rfl

theorem State.unlight_trace (s : State) (off : Half) : (s.unlight off).trace =
    s.trace ++ if s.ledOn then [.led (s.cfg.pin false)] else [] := by
  refine (State.setLed_trace { s with ledState := .unlit, litRem := 0 } false).trans ?_
  show s.trace ++ (if s.ledOn = false then _ else _) = _
  cases s.ledOn <;> rfl

theorem State.relight_trace (s : State) (lit : Half) (duty : Duty) : (s.relight lit duty).trace =
    s.trace ++ if s.ledOn then [] else [.led (s.cfg.pin true)] :=
  State.setLed_trace { s with ledState := .lit } true

theorem lightUp_fixed (h : s.cfg.ledVariant = .fixed) : lightUp s = s.relight 1000 s.duty := by
  unfold lightUp; rw [h]; rfl

theorem lightUp_breathing (h : s.cfg.ledVariant = .breathing) :
    lightUp s = s.relight s.duty.ticks s.duty.next := by
  unfold lightUp; rw [h]; rfl

theorem ledArm_fixed (h : s.cfg.ledVariant = .fixed) :
    ledArm s = { s.relight 1000 s.duty with offRem := 1000 } := by
  unfold ledArm; rw [h]; rfl

theorem ledArm_breathing (h : s.cfg.ledVariant = .breathing) :
    ledArm s = { s.relight 5000 .d4 with offRem := 1000 } := by
  unfold ledArm; rw [h]; rfl

/-- A counter reaches 0 from 1 only: from 0 it wraps. -/
theorem half_sub_one_ne_zero {r : Half} (h : r ≠ 1) : r - 1 ≠ 0 := by bv_omega

theorem ledTick_lit_counts (h : s.ledState = .lit) (hr : s.litRem ≠ 1) :
    ledTick s = { s with litRem := s.litRem - 1 } := by
  unfold ledTick; rw [h]; exact if_neg (half_sub_one_ne_zero hr)

theorem ledTick_lit_ends (h : s.ledState = .lit) (hr : s.litRem = 1) :
    ledTick s = s.unlight 1000 := by
  unfold ledTick; rw [h, hr]; rfl

theorem ledTick_unlit_counts (h : s.ledState = .unlit) (hr : s.offRem ≠ 1) :
    ledTick s = { s with offRem := s.offRem - 1 } := by
  unfold ledTick; rw [h]; exact if_neg (half_sub_one_ne_zero hr)

theorem ledTick_unlit_ends (h : s.ledState = .unlit) (hr : s.offRem = 1) :
    ledTick s = lightUp { s with offRem := 0 } := by
  unfold ledTick; rw [h, hr]; rfl

theorem dutyNumber_ticks (d : Duty) : d.ticks.toNat = dutyNumber d * 1000 := by
  cases d <;> rfl

theorem dutyNumber_next (d : Duty) :
    dutyNumber d.next = if dutyNumber d = 1 then 5 else dutyNumber d - 1 := by
  cases d <;> rfl

/-! ### What the LED commands leave alone -/

variable {ps : List Part}

theorem keepsAllBut_led {phase : LedState} {lit off : Half} {duty : Duty} {on : Bool}
    {es : List Event} (hl : Part.led ∈ ps) (ht : Part.trace ∈ ps) (h : keepsAllBut ps s u) :
    keepsAllBut ps s { u with
      ledState := phase, litRem := lit, offRem := off, duty := duty, ledOn := on, trace := es } := by
  intro p hp
  have hk := h p hp
  cases p with
  | led => exact absurd hl hp
  | trace => exact absurd ht hp
  | line k => cases k <;> exact hk
  | _ => exact hk

theorem keepsAllBut_lightUp (hl : Part.led ∈ ps) (ht : Part.trace ∈ ps) (h : keepsAllBut ps s u) :
    keepsAllBut ps s (lightUp u) := by
  cases hv : u.cfg.ledVariant with
  | fixed => rw [lightUp_fixed hv]; exact keepsAllBut_led (u := u) hl ht h
  | breathing => rw [lightUp_breathing hv]; exact keepsAllBut_led (u := u) hl ht h

theorem keepsAllBut_ledTick (hl : Part.led ∈ ps) (ht : Part.trace ∈ ps) (h : keepsAllBut ps s u) :
    keepsAllBut ps s (ledTick u) := by
  cases hu : u.ledState with
  | lit =>
    by_cases hr : u.litRem = 1
    · rw [ledTick_lit_ends hu hr]; exact keepsAllBut_led (u := u) hl ht h
    · rw [ledTick_lit_counts hu hr]; exact keepsAllBut_led (u := u) hl ht h
  | unlit =>
    by_cases hr : u.offRem = 1
    · rw [ledTick_unlit_ends hu hr]
      exact keepsAllBut_lightUp hl ht (keepsAllBut_led (u := u) hl ht h)
    · rw [ledTick_unlit_counts hu hr]; exact keepsAllBut_led (u := u) hl ht h

theorem keepsAllBut_ledArm (hl : Part.led ∈ ps) (ht : Part.trace ∈ ps) (h : keepsAllBut ps s u) :
    keepsAllBut ps s (ledArm u) := by
  cases hv : u.cfg.ledVariant with
  | fixed => rw [ledArm_fixed hv]; exact keepsAllBut_led (u := u) hl ht h
  | breathing => rw [ledArm_breathing hv]; exact keepsAllBut_led (u := u) hl ht h

end

/-- Settles O45: a tick in each phase, with the counter at 1 and not, is what the equations of
`ledTick` say. -/
theorem advanceCountsDownAndTurnsThePhase : Obligations.AdvanceCountsDownAndTurnsThePhase := by
  refine ⟨decodeOfEncodeIsTheCommand .ledAdvance rfl, fun s => ⟨_, rfl,
    nextCommand_finish (KeepsControl.ledTick s).ctx, keepsAllBut_finish (by decide)
      (keepsAllBut_ledTick (by decide) (by decide) (keepsAllBut_refl _ s)),
    fun h hr => ?_, fun h hr => ?_, fun h hr => ?_, fun h hr => ?_⟩⟩
  · rw [ledTick_lit_counts h hr]
    exact ⟨h, rfl, rfl, rfl, rfl, rfl⟩
  · rw [ledTick_lit_ends h hr]
    exact ⟨rfl, rfl, rfl, rfl, rfl, s.unlight_trace 1000⟩
  · rw [ledTick_unlit_counts h hr]
    exact ⟨h, rfl, rfl, rfl, rfl, rfl⟩
  · rw [ledTick_unlit_ends h hr]
    have htrace := State.relight_trace { s with offRem := 0 }
    cases hv : s.cfg.ledVariant with
    | fixed =>
      rw [lightUp_fixed (s := { s with offRem := 0 }) hv]
      exact ⟨rfl, rfl, rfl, htrace 1000 s.duty, fun _ => ⟨rfl, rfl⟩, nofun⟩
    | breathing =>
      rw [lightUp_breathing (s := { s with offRem := 0 }) hv]
      exact ⟨rfl, rfl, rfl, htrace s.duty.ticks s.duty.next, nofun,
        fun _ => ⟨dutyNumber_ticks s.duty, dutyNumber_next s.duty⟩⟩

/-- Settles O46: in each variant, `ledArm` begins a lit phase with every counter armed. -/
theorem ledInitRearmsTheScheduler : Obligations.LedInitRearmsTheScheduler := by
  refine ⟨decodeOfEncodeIsTheCommand .ledInit rfl, fun s => ⟨_, rfl,
    nextCommand_finish (KeepsControl.ledArm s).ctx, keepsAllBut_finish (by decide)
      (keepsAllBut_ledArm (by decide) (by decide) (keepsAllBut_refl _ s)), ?_⟩⟩
  cases hv : s.cfg.ledVariant with
  | fixed =>
    rw [ledArm_fixed hv]
    exact ⟨rfl, rfl, rfl, s.relight_trace 1000 s.duty, fun _ => ⟨rfl, rfl⟩, nofun⟩
  | breathing =>
    rw [ledArm_breathing hv]
    exact ⟨rfl, rfl, rfl, s.relight_trace 5000 .d4, nofun, fun _ => ⟨rfl, rfl⟩⟩

/-! ### The phases (44_led.md R235-R237) -/

section
variable {α : Type} {f : α → α} {g : Half → α} {r : Half} {j : Nat}

/-- A function that counts a 16-bit counter down while it is not 1 leaves it at `r - j` after `j`
applications, for every `j` below the counter's value `r`. -/
theorem iterate_countdown (hf : ∀ r, r ≠ 1 → f (g r) = g (r - 1)) (hj : j < r.toNat) :
    f^[j] (g r) = g (r - BitVec.ofNat 16 j) := by
  induction j with
  | zero => simp
  | succ j ih =>
    have hne : r - BitVec.ofNat 16 j ≠ 1 := by bv_omega
    rw [Function.iterate_succ_apply', ih (Nat.lt_of_succ_lt hj), hf _ hne, BitVec.ofNat_add,
      BitVec.sub_sub]
    rfl

/-- The last count of the `r` is the one from 1. -/
theorem iterate_countdown_end (hf : ∀ r, r ≠ 1 → f (g r) = g (r - 1)) (hr : 0 < r.toNat) :
    f^[r.toNat] (g r) = f (g 1) := by
  obtain ⟨n, hn⟩ := Nat.exists_eq_succ_of_ne_zero hr.ne'
  have hlast : r - BitVec.ofNat 16 n = 1 := by bv_omega
  rw [hn, Function.iterate_succ_apply', iterate_countdown hf (hn ▸ Nat.lt_succ_self n), hlast]

end

section
variable {s : State} {j : Nat}

theorem iterate_ledTick_lit (h : s.ledState = .lit) (hj : j < s.litRem.toNat) :
    ledTick^[j] s = { s with litRem := s.litRem - BitVec.ofNat 16 j } :=
  iterate_countdown (g := fun r => { s with litRem := r })
    (fun r hr => ledTick_lit_counts (s := { s with litRem := r }) h hr) hj

theorem iterate_ledTick_lit_ends (h : s.ledState = .lit) (hr : 0 < s.litRem.toNat) :
    ledTick^[s.litRem.toNat] s = s.unlight 1000 :=
  (iterate_countdown_end (g := fun r => { s with litRem := r })
    (fun r hr => ledTick_lit_counts (s := { s with litRem := r }) h hr) hr).trans
    (ledTick_lit_ends (s := { s with litRem := 1 }) h rfl)

/-- The unlit phase that follows a lit one. -/
theorem iterate_ledTick_unlight (hj : j < 1000) :
    ledTick^[j] (s.unlight 1000) = s.unlight (1000 - BitVec.ofNat 16 j) :=
  iterate_countdown (g := s.unlight)
    (fun r hr => ledTick_unlit_counts (s := s.unlight r) rfl hr) hj

theorem iterate_ledTick_unlight_ends : ledTick^[1000] (s.unlight 1000) = lightUp (s.unlight 0) :=
  (iterate_countdown_end (g := s.unlight) (r := 1000)
    (fun r hr => ledTick_unlit_counts (s := s.unlight r) rfl hr) (by decide)).trans
    (ledTick_unlit_ends (s := s.unlight 1) rfl rfl)

end

/-- Settles O47: the phase counts down from `n` to 1, and the `n`-th advance ends it. -/
theorem litPhaseLastsItsCount : Obligations.LitPhaseLastsItsCount := by
  refine ⟨fun _ => rfl, ?_⟩
  rintro s _ h rfl hn
  refine ⟨fun j hj => ?_, ?_⟩
  · rw [iterate_ledTick_lit h hj]
    have hcount : (s.litRem - BitVec.ofNat 16 j).toNat = s.litRem.toNat - j := by bv_omega
    exact ⟨h, hcount⟩
  · rw [iterate_ledTick_lit_ends h hn]
    exact ⟨rfl, rfl, rfl⟩

/-- The beginning of the lit phase with `LIT_REM` at `lit` and this `DUTY`, after a lit phase that
began in `s` and the unlit phase that followed it: `OFF_REM` is spent, the LED went off and on. -/
def State.blinked (s : State) (lit : Half) (duty : Duty) : State :=
  { s with
    litRem := lit
    duty := duty
    offRem := 0
    trace := s.trace ++ [.led (s.cfg.pin false), .led (s.cfg.pin true)] }

section
variable {s : State}

theorem relight_unlight (hlit : s.ledState = .lit) (hon : s.ledOn = true) (lit : Half)
    (duty : Duty) : (s.unlight 0).relight lit duty = s.blinked lit duty := by
  simp [State.relight, State.unlight, State.blinked, State.setLed, hlit, hon]

theorem iterate_ledTick_blink (h : s.ledState = .lit) (hr : 0 < s.litRem.toNat) :
    ledTick^[s.litRem.toNat + 1000] s = lightUp (s.unlight 0) := by
  rw [Nat.add_comm, Function.iterate_add_apply, iterate_ledTick_lit_ends h hr,
    iterate_ledTick_unlight_ends]

end

/-- Settles O48: a lit phase of 1000 advances, and the unlit phase after it. -/
theorem fixedBlinkPeriodIs2000Ticks : Obligations.FixedBlinkPeriodIs2000Ticks := by
  intro s hv hlit hrem hon
  have hcount : s.litRem.toNat = 1000 := by rw [hrem]; rfl
  have hpos : 0 < s.litRem.toNat := by omega
  have hoff : ledTick^[1000] s = s.unlight 1000 := hcount ▸ iterate_ledTick_lit_ends hlit hpos
  have hback : ledTick^[2000] s = s.blinked 1000 s.duty :=
    calc ledTick^[2000] s = ledTick^[s.litRem.toNat + 1000] s := by rw [hcount]
      _ = lightUp (s.unlight 0) := iterate_ledTick_blink hlit hpos
      _ = (s.unlight 0).relight 1000 s.duty := lightUp_fixed (s := s.unlight 0) hv
      _ = s.blinked 1000 s.duty := relight_unlight hlit hon 1000 s.duty
  refine ⟨?_, ?_, ?_⟩
  · rw [hoff]; rfl
  · rw [hoff, State.unlight_trace, hon]; rfl
  · rw [hback, State.blinked, ← hrem]

/-- Ticked `a` times from `v`, in the Breathing variant, the scheduler stands at the beginning of a
lit phase of `len` advances, in the state `s`. -/
structure BreathesAt (v : State) (a len : Nat) (duty : Duty) (s : State) : Prop where
  reached : ledTick^[a] v = s
  variant : s.cfg.ledVariant = .breathing
  phase : s.ledState = .lit
  on : s.ledOn = true
  count : s.litRem.toNat = len
  pos : 0 < len
  duty : s.duty = duty

section
variable {v s : State} {a len j : Nat} {d : Duty}

theorem Duty.ticks_pos (d : Duty) : 0 < d.ticks.toNat := by cases d <;> decide

/-- The next lit phase begins after this one and 1000 unlit advances. -/
theorem BreathesAt.next (h : BreathesAt v a len d s) :
    BreathesAt v (a + len + 1000) d.ticks.toNat d.next (s.blinked d.ticks d.next) where
  reached := by
    obtain ⟨hreached, hv, hlit, hon, rfl, hpos, rfl⟩ := h
    calc ledTick^[a + s.litRem.toNat + 1000] v
      _ = ledTick^[s.litRem.toNat + 1000] s := by
        rw [Nat.add_assoc, Nat.add_comm, Function.iterate_add_apply, hreached]
      _ = lightUp (s.unlight 0) := iterate_ledTick_blink hlit hpos
      _ = (s.unlight 0).relight s.duty.ticks s.duty.next :=
        lightUp_breathing (s := s.unlight 0) hv
      _ = s.blinked s.duty.ticks s.duty.next := relight_unlight hlit hon _ _
  variant := h.variant
  phase := h.phase
  on := h.on
  count := rfl
  pos := d.ticks_pos
  duty := rfl

theorem BreathesAt.lit (h : BreathesAt v a len d s) (hj : j < len) :
    (ledTick^[a + j] v).ledState = .lit ∧ (ledTick^[a + j] v).ledOn = true ∧
      (ledTick^[a + j] v).litRem.toNat = len - j := by
  obtain ⟨hreached, -, hlit, hon, rfl, -, -⟩ := h
  rw [Nat.add_comm, Function.iterate_add_apply, hreached, iterate_ledTick_lit hlit hj]
  have hcount : (s.litRem - BitVec.ofNat 16 j).toNat = s.litRem.toNat - j := by bv_omega
  exact ⟨hlit, hon, hcount⟩

theorem BreathesAt.unlit (h : BreathesAt v a len d s) (hj : j < 1000) :
    (ledTick^[a + len + j] v).ledState = .unlit ∧ (ledTick^[a + len + j] v).ledOn = false ∧
      (ledTick^[a + len + j] v).offRem.toNat = 1000 - j := by
  obtain ⟨hreached, -, hlit, -, rfl, hpos, -⟩ := h
  rw [Nat.add_comm, Function.iterate_add_apply, Nat.add_comm a, Function.iterate_add_apply,
    hreached, iterate_ledTick_lit_ends hlit hpos, iterate_ledTick_unlight hj]
  have hcount : ((1000 : Half) - BitVec.ofNat 16 j).toNat = 1000 - j := by bv_omega
  exact ⟨rfl, rfl, hcount⟩

end

/-- Settles O49: five lit phases follow each other, and the fifth is followed by the first. -/
theorem breathingCycleIs20000Ticks : Obligations.BreathingCycleIs20000Ticks := by
  intro s hv hlit hrem hduty hon
  have h5 : BreathesAt s 0 5000 .d4 s := ⟨rfl, hv, hlit, hon, by rw [hrem]; rfl, by decide, hduty⟩
  have h4 : BreathesAt s 6000 4000 .d3 _ := h5.next
  have h3 : BreathesAt s 11000 3000 .d2 _ := h4.next
  have h2 : BreathesAt s 15000 2000 .d1 _ := h3.next
  have h1 : BreathesAt s 18000 1000 .d5 _ := h2.next
  have hcycle : BreathesAt s 20000 5000 .d4 _ := h1.next
  refine ⟨fun a len h => ?_, ?_⟩
  · rcases h with ⟨rfl, rfl⟩ | ⟨rfl, rfl⟩ | ⟨rfl, rfl⟩ | ⟨rfl, rfl⟩ | ⟨rfl, rfl⟩
    · exact ⟨fun _ => h5.lit, fun _ => h5.unlit⟩
    · exact ⟨fun _ => h4.lit, fun _ => h4.unlit⟩
    · exact ⟨fun _ => h3.lit, fun _ => h3.unlit⟩
    · exact ⟨fun _ => h2.lit, fun _ => h2.unlit⟩
    · exact ⟨fun _ => h1.lit, fun _ => h1.unlit⟩
  · rw [hcycle.reached]
    simp [State.blinked, Duty.ticks, Duty.next, hrem, hduty, List.replicate_succ]

/-! ### `LED_ON` follows `LED_STATE` (44_led.md R238) -/

/-- The scheduler's registers (10_state.md R41). -/
def State.ledRegs (s : State) : LedState × Half × Half × Duty × Bool :=
  (s.ledState, s.litRem, s.offRem, s.duty, s.ledOn)

/-- Where `c` answers a state, the scheduler's registers are as they were. (After an update that
writes none of them `State.ledRegs` is by definition as before, so that `rfl` proves it.) -/
def KeepsLed (c : State → Result) : Prop :=
  ∀ {s t : State}, c s = .next t → t.ledRegs = s.ledRegs

section
variable {s t : State} {k : Line}

theorem ledSound_of_ledRegs (h : t.ledRegs = s.ledRegs) (hs : s.ledSound) : t.ledSound := by
  obtain ⟨hstate, hlit, hoff, -, hon⟩ : t.ledState = s.ledState ∧ t.litRem = s.litRem ∧
    t.offRem = s.offRem ∧ t.duty = s.duty ∧ t.ledOn = s.ledOn := by
      simpa [State.ledRegs] using h
  unfold State.ledSound at hs ⊢
  rwa [hstate, hlit, hoff, hon]

/-! ### The shared micro-sequences -/

theorem keepsLed_finish : KeepsLed fun t => .next t.finish := by rintro s _ ⟨⟩; rfl

theorem keepsLed_setMicro {m : Micro} : KeepsLed fun t => .next (t.setMicro m) := by
  rintro s _ ⟨⟩; rfl

theorem keepsLed_writeLine {b : Byte} {c : State → Result} (hc : KeepsLed c) :
    KeepsLed fun s => writeLine k b s c := fun h => (hc (writeLine_next.1 h).2.2).trans rfl

theorem keepsLed_saveStart {c : State → Result} (hc : KeepsLed c) :
    KeepsLed fun s => saveStart s c := fun h => (hc (saveStart_next.1 h).2).trans rfl

theorem keepsLed_programM1 {b : ByteOp} {m : Micro} : KeepsLed (programM1 b m) := by
  intro s t h
  obtain ⟨_, _, -, -, -, -, rfl⟩ := programM1_next.1 h
  rfl

theorem keepsLed_holdFlash : KeepsLed holdFlash := by
  intro s t h
  unfold holdFlash at h
  split at h <;> cases h <;> rfl

variable {fin : State → Result}

theorem keepsLed_sendNext {p : SendPos} {more : SendPos → State → Result}
    (hm : ∀ q, KeepsLed (more q)) (hf : KeepsLed fin) :
    KeepsLed fun s => sendNext k p s more fin := by
  intro s t h
  rcases sendNext_next h with ⟨-, -, h⟩ | ⟨-, -, h⟩ | ⟨-, h⟩
  · exact (hm _ h).trans rfl
  · exact (hm _ h).trans rfl
  · exact (hf h).trans rfl

theorem keepsLed_saveNext {n : Nat} {p : SavePos} {more : SavePos → State → Result}
    (hm : ∀ q, KeepsLed (more q)) (hf : KeepsLed fin) :
    KeepsLed fun s => saveNext n p s more fin := by
  intro s t h
  rcases saveNext_next h with ⟨-, -, h⟩ | ⟨-, -, h⟩ | ⟨_, _, _, -, -, -, -, -, h⟩ | ⟨_, -, -, h⟩ |
    ⟨_, -, -, -, h⟩ | ⟨_, -, -, -, h⟩
  · exact (hm _ h).trans rfl
  · exact (hm _ h).trans rfl
  · exact (hm _ h).trans rfl
  · exact (hm _ h).trans rfl
  · exact (hm _ h).trans rfl
  · exact (hf h).trans rfl

theorem keepsLed_loadStart {more : LoadPos → State → Result} (hm : ∀ q, KeepsLed (more q))
    (hf : KeepsLed fin) : KeepsLed fun s => loadStart s more fin := by
  intro s t h
  rcases (loadStart_next h).2 with ⟨-, h⟩ | ⟨-, h⟩
  · exact (hf h).trans rfl
  · exact (hm _ h).trans rfl

theorem keepsLed_loadNext {p : LoadPos} {more : LoadPos → State → Result}
    (hm : ∀ q, KeepsLed (more q)) (hf : KeepsLed fin) :
    KeepsLed fun s => loadNext p s more fin := by
  intro s t h
  rcases loadNext_next h with ⟨_, -, h⟩ | ⟨_, _, -, -, _, h⟩ | ⟨_, _, -, -, -, h⟩ |
    ⟨_, _, -, -, -, -, h⟩
  · exact (hf h).trans rfl
  · exact (hm _ h).trans rfl
  · exact (hf h).trans rfl
  · exact (hm _ h).trans rfl

/-! ### The commands -/

/-- Only the two LED commands write the scheduler's registers. -/
theorem keepsLed_exec {i : Instr} (hinit : i ≠ .ledInit) (hadvance : i ≠ .ledAdvance) :
    KeepsLed (exec i) := by
  intro s t h
  cases i with
  | ledInit => exact absurd rfl hinit
  | ledAdvance => exact absurd rfl hadvance
  | nop => cases h; rfl
  | idle => cases h; rfl
  | reti => obtain ⟨_, _, -, rfl⟩ := leaveHandler_next.1 h; rfl
  | flSetaddr a => cases h; rfl
  | flErase =>
    obtain ⟨a, -, -, h⟩ := withCursor_next.1 h
    cases (flashIdle_next.1 h).2
    rfl
  | flProg b => exact keepsLed_programM1 h
  | flRead =>
    simp only [exec, execFlRead] at h
    obtain ⟨_, -, -, -, ⟨⟩⟩ := readCursor_next.1 h
    rfl
  | nvWrb b => exact keepsLed_programM1 h
  | nvRdb =>
    simp only [exec, execNvRdb] at h
    obtain ⟨_, -, -, -, ⟨⟩⟩ := readCursor_next.1 h
    rfl
  | nvSave n => exact keepsLed_saveStart keepsLed_setMicro h
  | nvLoad => exact keepsLed_loadStart (fun _ => keepsLed_setMicro) keepsLed_finish h
  | tmrConfig mode gate src =>
    simp only [exec, execTmrConfig] at h
    split at h
    · cases h
    · cases h; rfl
  | tmrReload v => cases h; rfl
  | tmrStart =>
    simp only [exec, execTmrStart] at h
    split at h
    · cases h
    · cases h; rfl
  | tmrStop => cases h; rfl
  | serWrite k b =>
    obtain ⟨_, -, h⟩ := withByte_next.1 (withLine_next.1 h).2
    exact keepsLed_writeLine keepsLed_finish h
  | serRead k => cases (withLine_next.1 h).2; rfl
  | serTxdone k => cases (withLine_next.1 h).2; rfl
  | serClrtx k => cases (withLine_next.1 h).2; rfl
  | serRxrdy k => cases (withLine_next.1 h).2; rfl
  | serClrrx k => cases (withLine_next.1 h).2; rfl
  | serConfig k mode md baud dbl =>
    have h := (withLine_next.1 h).2
    split at h
    · cases h
    · cases h; rfl
  | serSendb k b =>
    obtain ⟨_, -, h⟩ := withByte_next.1 (withLine_next.1 h).2
    exact keepsLed_writeLine keepsLed_setMicro h
  | intEnall => cases h; rfl
  | intDisall => cases h; rfl
  | intEnsrc src => cases (withSource_next.1 h).2; rfl
  | intDissrc src => cases (withSource_next.1 h).2; rfl
  | echoOnbyte b =>
    obtain ⟨_, -, h⟩ := withByte_next.1 h
    split at h
    · cases h; rfl
    · split at h
      · cases h
      · split at h
        · cases h
        · cases h; rfl
  | echoReplay =>
    simp only [exec, execEchoReplay] at h
    split at h
    · cases h
    · cases h; rfl

theorem keepsLed_onbyteNext {start : Byte} {len : Nat} (p : EchoPos) :
    KeepsLed (onbyteNext start len p) := by
  intro s t h
  simp only [onbyteNext, echoAt] at h
  cases p with
  | e2 i => exact keepsLed_writeLine keepsLed_setMicro h
  | e2Send i q => exact keepsLed_sendNext (fun _ => keepsLed_setMicro) keepsLed_setMicro h
  | e3 i => cases h; rfl
  | e4 => cases (saveStart_next.1 h).2; rfl
  | e4Save q => exact keepsLed_saveNext (fun _ => keepsLed_setMicro) keepsLed_setMicro h
  | e5 => cases h; rfl

theorem keepsLed_replayNext (p : ReplayPos) : KeepsLed (replayNext p) := by
  intro s t h
  cases p with
  | p1 => exact keepsLed_loadStart (fun _ => keepsLed_setMicro) keepsLed_setMicro h
  | p1Load q =>
    simp only [replayNext] at h
    exact keepsLed_loadNext (fun _ => keepsLed_setMicro) keepsLed_setMicro h
  | p2 =>
    simp only [replayNext, replayAt] at h
    split at h <;> exact keepsLed_setMicro h
  | p3 j =>
    simp only [replayNext, replayByte] at h
    split at h
    · exact keepsLed_setMicro h
    · split at h
      · split at h
        · exact keepsLed_writeLine keepsLed_setMicro h
        · exact keepsLed_setMicro h
      · cases h
  | p3Send j q =>
    simp only [replayNext] at h
    exact keepsLed_sendNext (fun _ => keepsLed_setMicro) keepsLed_setMicro h
  | p4 => cases h; rfl

theorem keepsLed_resume (m : Micro) : KeepsLed (resume m) := by
  intro s t h
  cases m with
  | sendb k p =>
    simp only [resume] at h
    exact keepsLed_sendNext (fun _ => keepsLed_setMicro) keepsLed_finish h
  | flErase => exact keepsLed_holdFlash h
  | flProg => exact keepsLed_holdFlash h
  | nvWrb =>
    simp only [resume, wrbM2] at h
    split at h <;> cases h <;> rfl
  | nvSave n p =>
    simp only [resume] at h
    exact keepsLed_saveNext (fun _ => keepsLed_setMicro) keepsLed_finish h
  | nvLoad p =>
    simp only [resume] at h
    exact keepsLed_loadNext (fun _ => keepsLed_setMicro) keepsLed_finish h
  | onbyte start len p => exact keepsLed_onbyteNext p h
  | replay p => exact keepsLed_replayNext p h

/-- What a CPU step does to the scheduler: nothing, a tick, or its re-arming. -/
theorem cpuStep_ledRegs (h : cpuStep s = .next t) :
    t.ledRegs = s.ledRegs ∨ t.ledRegs = (ledTick s).ledRegs ∨ t.ledRegs = (ledArm s).ledRegs := by
  rcases cpuStep_next h with ⟨m, -, h⟩ | ⟨-, _, i, -, -, -, h⟩
  · exact .inl (keepsLed_resume m h)
  · by_cases hinit : i = .ledInit
    · subst hinit; cases h; exact .inr (.inr rfl)
    · by_cases hadvance : i = .ledAdvance
      · subst hadvance; cases h; exact .inr (.inl rfl)
      · exact .inl (keepsLed_exec hinit hadvance h)

/-! ### The other agents -/

theorem lineComplete_ledRegs : (lineComplete k s).ledRegs = s.ledRegs := by
  unfold lineComplete; split <;> rfl

theorem lineDeliver_ledRegs {b : Byte} {received newest : Bool} :
    (lineDeliver k b received newest s).ledRegs = s.ledRegs := by
  unfold lineDeliver; split <;> rfl

theorem flashComplete_ledRegs : (flashComplete s).ledRegs = s.ledRegs := by
  unfold flashComplete; split <;> rfl

/-! ### Soundness -/

theorem ledSound_lit (h : s.ledState = .lit) :
    s.ledSound ↔ s.ledOn = true ∧ s.litRem ≠ 0 := by
  unfold State.ledSound; rw [h]

theorem ledSound_unlit (h : s.ledState = .unlit) :
    s.ledSound ↔ s.ledOn = false ∧ s.offRem ≠ 0 := by
  unfold State.ledSound; rw [h]

theorem lightUp_ledSound (s : State) : (lightUp s).ledSound := by
  cases hv : s.cfg.ledVariant with
  | fixed =>
    rw [lightUp_fixed hv]
    have hne : (1000 : Half) ≠ 0 := by decide
    exact (ledSound_lit rfl).2 ⟨rfl, hne⟩
  | breathing =>
    rw [lightUp_breathing hv]
    have hne : s.duty.ticks ≠ 0 := by cases s.duty <;> decide
    exact (ledSound_lit rfl).2 ⟨rfl, hne⟩

theorem litArm_ne_zero (v : LedVariant) : litArm v ≠ 0 := by cases v <;> decide

theorem ledArm_ledSound (s : State) : (ledArm s).ledSound := by
  cases hv : s.cfg.ledVariant with
  | fixed => rw [ledArm_fixed hv]; exact (ledSound_lit rfl).2 ⟨rfl, litArm_ne_zero .fixed⟩
  | breathing =>
    rw [ledArm_breathing hv]
    exact (ledSound_lit rfl).2 ⟨rfl, litArm_ne_zero .breathing⟩

theorem ledTick_ledSound (hs : s.ledSound) : (ledTick s).ledSound := by
  cases hstate : s.ledState with
  | lit =>
    obtain ⟨hon, -⟩ := (ledSound_lit hstate).1 hs
    by_cases hr : s.litRem = 1
    · rw [ledTick_lit_ends hstate hr]
      have hne : (1000 : Half) ≠ 0 := by decide
      exact (ledSound_unlit rfl).2 ⟨rfl, hne⟩
    · rw [ledTick_lit_counts hstate hr]
      exact (ledSound_lit (s := { s with litRem := s.litRem - 1 }) hstate).2
        ⟨hon, half_sub_one_ne_zero hr⟩
  | unlit =>
    obtain ⟨hoff, -⟩ := (ledSound_unlit hstate).1 hs
    by_cases hr : s.offRem = 1
    · rw [ledTick_unlit_ends hstate hr]
      exact lightUp_ledSound _
    · rw [ledTick_unlit_counts hstate hr]
      exact (ledSound_unlit (s := { s with offRem := s.offRem - 1 }) hstate).2
        ⟨hoff, half_sub_one_ne_zero hr⟩

theorem powerCycle_ledSound (s : State) : (powerCycle s).ledSound :=
  (ledSound_lit rfl).2 ⟨rfl, litArm_ne_zero s.cfg.ledVariant⟩

theorem cpuStep_ledSound (h : cpuStep s = .next t) (hs : s.ledSound) : t.ledSound := by
  rcases cpuStep_ledRegs h with h | h | h
  · exact ledSound_of_ledRegs h hs
  · exact ledSound_of_ledRegs h (ledTick_ledSound hs)
  · exact ledSound_of_ledRegs h (ledArm_ledSound s)

theorem takeMove_ledSound {m : Move} (h : takeMove m s = .next t) (hs : s.ledSound) :
    t.ledSound := by
  rcases takeMove_next h with h | ⟨_, -, -, h⟩ | ⟨-, -, rfl⟩ | ⟨_, -, -, -, rfl⟩ |
    ⟨_, _, _, _, -, -, rfl⟩ | ⟨-, -, rfl⟩ | ⟨-, rfl⟩
  · exact cpuStep_ledSound h hs
  · obtain ⟨_, -, -, -, -, -, -, rfl⟩ := enterSource_next h
    exact hs
  · exact hs
  · exact ledSound_of_ledRegs lineComplete_ledRegs hs
  · exact ledSound_of_ledRegs lineDeliver_ledRegs hs
  · exact ledSound_of_ledRegs flashComplete_ledRegs hs
  · exact powerCycle_ledSound s

end

/-- Settles O50: `LED_STATE` and `LED_ON` are written together, each with the counter of the phase
that begins, and a counter that is not 1 does not come to 0; a reset arms the scheduler. -/
theorem ledFollowsItsState : Obligations.LedFollowsItsState := by
  intro s t hs h
  obtain ⟨-, -, hm | ⟨_, -, rfl⟩ | ⟨_, -, rfl⟩⟩ := step_next h
  · exact takeMove_ledSound hm hs
  · exact hs
  · exact hs

end Sys2Proof.Machine

namespace Sys2Proof.Machine

/-! ### The first micro-steps of the echo commands (45_echo.md R252, R253, R255, R256) -/

/-- `v` is a letter, and `start` the first letter of its alphabet (45_echo.md R253). -/
def LetterFrom (v start : Byte) : Prop :=
  0x61 ≤ v.toNat ∧ v.toNat ≤ 0x7A ∧ start = 0x61 ∨ 0x41 ≤ v.toNat ∧ v.toNat ≤ 0x5A ∧ start = 0x41

section
variable {s u : State} {ps : List Part} {b : ByteOp} {v start : Byte}

theorem keepsAllBut_echo {buf : Vector (Option Byte) 27} {busy : Bool} (hf : Part.echo ∈ ps)
    (h : keepsAllBut ps s u) : keepsAllBut ps s { u with echoBuf := buf, echoBusy := busy } := by
  intro p hp
  have hk := h p hp
  cases p with
  | echo => exact absurd hf hp
  | _ => exact hk

theorem runStart_no_letter (hlower : ¬(0x61 ≤ v.toNat ∧ v.toNat ≤ 0x7A))
    (hupper : ¬(0x41 ≤ v.toNat ∧ v.toNat ≤ 0x5A)) : runStart v = none := by
  rw [runStart, if_neg hlower, if_neg hupper]

theorem runStart_letter (h : LetterFrom v start) : runStart v = some start := by
  rcases h with ⟨hlow, hhigh, rfl⟩ | ⟨hlow, hhigh, rfl⟩
  · exact if_pos ⟨hlow, hhigh⟩
  · rw [runStart, if_neg (by omega), if_pos ⟨hlow, hhigh⟩]

theorem runLength_letter (h : LetterFrom v start) :
    runLength start v = v.toNat - start.toNat + 1 := by
  have hle : start ≤ v := by rcases h with ⟨hlow, -, rfl⟩ | ⟨hlow, -, rfl⟩ <;> exact hlow
  rw [runLength, BitVec.toNat_sub_of_le hle]

/-- R254: the run and its terminator fit `ECHO_BUF`. -/
theorem length_le_of_letter (h : LetterFrom v start) : v.toNat - start.toNat + 1 ≤ 26 := by
  rcases h with ⟨-, hhigh, rfl⟩ | ⟨-, hhigh, rfl⟩
  · exact Nat.succ_le_succ (Nat.sub_le_sub_right hhigh 0x61)
  · exact Nat.succ_le_succ (Nat.sub_le_sub_right hhigh 0x41)

theorem exec_echoOnbyte_drops (hv : operandIs b s v) (h : runStart v = none) :
    exec (.echoOnbyte b) s = .next s.finish := by
  rw [exec, execEchoOnbyte, withByte_operand hv, h]

theorem exec_echoOnbyte_busy (hv : operandIs b s v) (h : LetterFrom v start)
    (hb : s.echoBusy = true) : exec (.echoOnbyte b) s = .fault (.echoReentry s.info) := by
  rw [exec, execEchoOnbyte, withByte_operand hv, runStart_letter h]
  exact if_pos hb

/-- The state in which a composite echo command goes on at `m`, its `ECHO_BUSY` set. -/
def State.echoStarted (s : State) (m : Micro) : State :=
  ({ s with echoBusy := true } : State).setMicro m

theorem exec_echoOnbyte_starts (hv : operandIs b s v) (h : LetterFrom v start)
    (hb : s.echoBusy = false) : exec (.echoOnbyte b) s =
      .next (s.echoStarted (.onbyte start (v.toNat - start.toNat + 1) (.e2 0))) := by
  have hfits : ¬ v.toNat - start.toNat + 1 + 1 > 27 :=
    Nat.not_lt.2 (Nat.succ_le_succ (length_le_of_letter h))
  rw [exec, execEchoOnbyte, withByte_operand hv, runStart_letter h]
  simp only [hb, runLength_letter h, if_neg hfits]
  rfl

theorem exec_echoReplay_busy (hb : s.echoBusy = true) :
    exec .echoReplay s = .fault (.echoReentry s.info) := if_pos hb

theorem exec_echoReplay_starts (hb : s.echoBusy = false) :
    exec .echoReplay s = .next (s.echoStarted (.replay .p1)) := if_neg (hb ▸ Bool.false_ne_true)

theorem keepsAllBut_echoStarted {m : Micro} (hf : Part.frame ∈ ps) (he : Part.echo ∈ ps)
    (h : keepsAllBut ps s u) : keepsAllBut ps s (u.echoStarted m) :=
  keepsAllBut_setMicro hf (keepsAllBut_echo he h)

end

/-- Settles O51: a byte that is no letter starts no run, whatever `ECHO_BUSY` is. -/
theorem nonLettersAreDroppedSilently : Obligations.NonLettersAreDroppedSilently := by
  intro s b v hv hlower hupper
  exact ⟨_, exec_echoOnbyte_drops hv (runStart_no_letter hlower hupper), nextCommand_finish rfl,
    keepsAllBut_finish (by decide) (keepsAllBut_refl _ s)⟩

/-- Settles O52: E1 checks the operand, then `ECHO_BUSY`; the capacity guard never fails. -/
theorem letterStartsARun : Obligations.LetterStartsARun := by
  refine fun s b => ⟨?_, fun v start hv hletter => ⟨exec_echoOnbyte_busy hv hletter, fun hb => ?_⟩⟩
  · rintro rfl hdl
    exact withByte_undef hdl
  · exact ⟨_, exec_echoOnbyte_starts hv hletter hb, rfl, rfl, goesOnAt_setMicro rfl,
      keepsAllBut_echoStarted (by decide) (by decide) (keepsAllBut_refl _ s)⟩

/-! ### P3 (45_echo.md R256, R257) -/

section
variable {s : State} {j : Nat} {b : Byte}

theorem printable_iff : printable b = true ↔ 0x20 ≤ b.toNat ∧ b.toNat ≤ 0x7E := by
  simp [printable]

theorem replayByte_at_end (h : j = s.loadLen.val) : replayByte j s = replayAt .p4 s :=
  if_pos (.inl h)

theorem replayByte_not_printable (hbyte : s.loadBuf[j]? = some (some b))
    (hb : b.toNat < 0x20 ∨ 0x7E < b.toNat) : replayByte j s = replayAt .p4 s := by
  have hnot : ¬ printable b = true := fun h => by
    have := printable_iff.1 h
    omega
  simp only [replayByte, hbyte, if_neg hnot, ite_self]

theorem cpuStep_replay {p : ReplayPos} (hm : s.ctx.micro = some (.replay p)) :
    cpuStep s = replayNext p s := cpuStep_resume hm

end

/-- Settles O56: both ends of P3 go on at P4. -/
theorem replayStopsAtANonPrintableByte : Obligations.ReplayStopsAtANonPrintableByte := by
  intro s rest j hr hp hm hstop
  have hbyte : replayByte j (s.withPlan rest) = replayAt .p4 (s.withPlan rest) := by
    rcases hstop with hend | ⟨-, b, hbyte, hb⟩
    · exact replayByte_at_end hend
    · exact replayByte_not_printable (s := s.withPlan rest) hbyte hb
  exact ⟨_, step_move hr hp ((cpuStep_replay (s := s.withPlan rest) hm).trans hbyte),
    goesOnAt_setMicro rfl,
    keepsAllBut_setMicro (by decide) (keepsAllBut_plan (by decide) (keepsAllBut_refl _ s))⟩

end Sys2Proof.Machine

namespace Sys2Proof.Machine

/-! ### Runs between sets of states -/

theorem Part.same_trans {p : Part} {s u t : State} (h : p.same s u) (g : p.same u t) :
    p.same s t := by
  cases p with
  | stack =>
    obtain ⟨hid, htail, hmain⟩ := h
    obtain ⟨gid, gtail, gmain⟩ := g
    refine ⟨gid.trans hid, gtail.trans htail, fun hne => (gmain fun hu => hne ?_).trans (hmain hne)⟩
    rw [hu] at hid
    exact List.map_eq_nil_iff.1 hid.symm
  | flash => exact fun a => ⟨(g a).1.trans (h a).1, (g a).2.trans (h a).2⟩
  | _ => simp_all [Part.same]

section
variable {s u t : State} {ps qs : List Part}

theorem keepsAllBut_mono (h : keepsAllBut ps s u) (hsub : ps ⊆ qs) : keepsAllBut qs s u :=
  fun p hp => h p fun hmem => hp (hsub hmem)

theorem keepsAllBut_trans (h : keepsAllBut ps s u) (g : keepsAllBut qs u t) (hsub : qs ⊆ ps) :
    keepsAllBut ps s t := fun p hp => Part.same_trans (h p hp) (g p fun hmem => hp (hsub hmem))

theorem run_keeps_wf {n : Nat} (h : Host.Core.run Sys2Proof.core n s = .next t) (hwf : s.mem.wf) :
    t.mem.wf := by
  induction n generalizing s with
  | zero => cases h; exact hwf
  | succ n ih =>
    simp only [Host.Core.run] at h
    split at h
    · next hstep => exact ih h ((step_keepsForm hstep).wf hwf)
    · cases h
    · cases h

end

/-- From every running state of `P` whose plan begins with `ms`, these moves lead to one of `Q`. -/
def LeadsFrom (P : State → Prop) (ms : List Move) (Q : State → Prop) : Prop :=
  ∀ (s : State) (rest : List Move), P s → s.running = true → s.plan = ms ++ rest →
    ∃ t, Leads ms s t ∧ Q t

/-- `s` but for its plan. -/
def Planned (s u : State) : Prop := ∃ plan, u = s.withPlan plan

section
variable {P Q R : State → Prop} {ms ms' rest : List Move} {s t : State}

theorem Leads.rest_plan (h : Leads ms s t) (hp : s.plan = ms ++ rest) : t.plan = rest :=
  List.append_cancel_left (h.plan.symm.trans hp)

theorem LeadsFrom.trans (h : LeadsFrom P ms Q) (g : LeadsFrom Q ms' R) :
    LeadsFrom P (ms ++ ms') R := by
  intro s rest hs hr hp
  rw [List.append_assoc] at hp
  obtain ⟨u, hu, hq⟩ := h s _ hs hr hp
  obtain ⟨t, ht, hq'⟩ := g u rest hq hu.running (hu.rest_plan hp)
  exact ⟨t, hu.trans ht, hq'⟩

/-- The same moves `n` times, from `P 0` to `P n`. -/
theorem LeadsFrom.rounds {P : Nat → State → Prop} {n : Nat}
    (h : ∀ i, i < n → LeadsFrom (P i) ms (P (i + 1))) :
    LeadsFrom (P 0) (List.replicate n ms).flatten (P n) := by
  induction n with
  | zero => exact fun s _ hs hr _ => ⟨s, .refl hr, hs⟩
  | succ n ih =>
    have hsplit : (List.replicate (n + 1) ms).flatten = (List.replicate n ms).flatten ++ ms := by
      simp [List.replicate_succ']
    rw [hsplit]
    exact (ih fun i hi => h i (Nat.lt_succ_of_lt hi)).trans (h n (Nat.lt_succ_self n))

/-- One CPU step. -/
theorem LeadsFrom.cpu
    (h : ∀ s plan, P s → ∃ t, cpuStep (s.withPlan plan) = .next t ∧ Q t) :
    LeadsFrom P [.cpu] Q := by
  intro s rest hs hr hp
  obtain ⟨t, hstep, hq⟩ := h s rest hs
  exact ⟨t, .cpu hr hp hstep, hq⟩

/-- One CPU step of a state that is known but for its plan. -/
theorem LeadsFrom.planned
    (h : ∀ plan, cpuStep (s.withPlan plan) = .next (t.withPlan plan)) :
    LeadsFrom (Planned s) [.cpu] (Planned t) := by
  refine .cpu ?_
  rintro _ plan ⟨_, rfl⟩
  exact ⟨_, h plan, plan, rfl⟩

theorem LeadsFrom.runs (h : LeadsFrom (Planned s) ms Q) (hr : s.running = true) :
    ∃ t, runs ms s t ∧ Q t := by
  obtain ⟨t, hrun, hq⟩ := h (s.withPlan ms) [] ⟨_, rfl⟩ hr (List.append_nil ms).symm
  exact ⟨t, hrun.runs, hq⟩

end

/-! ### A replay of an absent slot (45_echo.md R256) -/

section
variable {s u : State} {ps : List Part} {m : Micro}

@[simp] theorem State.echoStarted_ctx :
    (s.echoStarted m).ctx = { s.ctx with micro := some m } := State.setMicro_ctx _ m

/-- P4 and E5: `ECHO_BUSY` is cleared and the command is over. -/
def State.echoEnded (s : State) : State := ({ s with echoBusy := false } : State).finish

@[simp] theorem State.echoEnded_ctx : s.echoEnded.ctx = s.ctx.advance := State.finish_ctx _

theorem keepsAllBut_echoEnded (hf : Part.frame ∈ ps) (he : Part.echo ∈ ps)
    (h : keepsAllBut ps s u) : keepsAllBut ps s u.echoEnded :=
  keepsAllBut_finish hf (keepsAllBut_echo he h)

/-- L1 of a load that finds the slot absent and ends with its command going on at `m`. -/
def State.loadedNone (s : State) (m : Micro) : State :=
  ({ s with
    addr := some (s.cfg.slotAddr + 1), loadPresent := false, loadLen := 0 } : State).setMicro m

@[simp] theorem State.loadedNone_ctx :
    (s.loadedNone m).ctx = { s.ctx with micro := some m } := State.setMicro_ctx _ m

theorem keepsAllBut_loadedNone (hf : Part.frame ∈ ps) (hc : Part.cursor ∈ ps) (hl : Part.load ∈ ps)
    (h : keepsAllBut ps s u) : keepsAllBut ps s (u.loadedNone m) :=
  keepsAllBut_setMicro hf (keepsAllBut_load (u := { u with addr := some (u.cfg.slotAddr + 1) }) hl
    (keepsAllBut_cursor hc h))

theorem cpuStep_replay_p1_absent (hm : s.ctx.micro = some (.replay .p1)) (hb : s.flBusy = false)
    (h : s.mem.read s.cfg.slotAddr.toNat = sentinel) :
    cpuStep s = .next (s.loadedNone (.replay .p2)) := by
  rw [cpuStep_replay hm, replayNext, loadStart_absent hb h]
  rfl

theorem cpuStep_replay_p1_present (hm : s.ctx.micro = some (.replay .p1)) (hb : s.flBusy = false)
    (h : s.slotByte 0 ≠ sentinel) : cpuStep s = .next
      (({ s with addr := some (s.cfg.slotAddr + 1), loadPresent := true } : State).setMicro
        (.replay (.p1Load (.l2 0 (s.slotByte 0))))) := by
  rw [cpuStep_replay hm, replayNext, loadStart_present hb h]
  rfl

theorem cpuStep_replay_p2_absent (hm : s.ctx.micro = some (.replay .p2))
    (h : s.loadPresent = false) : cpuStep s = .next (s.setMicro (.replay .p4)) :=
  (cpuStep_replay hm).trans (if_neg (h ▸ Bool.false_ne_true))

theorem cpuStep_replay_p2_present (hm : s.ctx.micro = some (.replay .p2))
    (h : s.loadPresent = true) : cpuStep s = .next (s.setMicro (.replay (.p3 0))) :=
  (cpuStep_replay hm).trans (if_pos h)

theorem cpuStep_replay_p4 (hm : s.ctx.micro = some (.replay .p4)) :
    cpuStep s = .next s.echoEnded := cpuStep_replay hm

/-- P0. -/
theorem leads_replay_p0 (hw : s.atWord 0x820000) (hb : s.echoBusy = false) :
    LeadsFrom (Planned s) [.cpu] (Planned (s.echoStarted (.replay .p1))) :=
  .planned fun plan => (cpuStep_exec (s := s.withPlan plan) hw rfl).trans
    (exec_echoReplay_starts (s := s.withPlan plan) hb)

/-- P0 and P1 of a replay that finds the slot absent. -/
def State.foundAbsent (s : State) : State :=
  (s.echoStarted (.replay .p1)).loadedNone (.replay .p2)

theorem leads_replay_absent (hw : s.atWord 0x820000) (hb : s.echoBusy = false)
    (hidle : s.flBusy = false) (habsent : s.mem.read s.cfg.slotAddr.toNat = sentinel) :
    LeadsFrom (Planned s) [.cpu, .cpu, .cpu, .cpu]
      (Planned (s.foundAbsent.setMicro (.replay .p4)).echoEnded) := by
  have hp1 : LeadsFrom (Planned (s.echoStarted (.replay .p1))) [.cpu] (Planned s.foundAbsent) :=
    .planned fun _ => cpuStep_replay_p1_absent (by simp) hidle habsent
  have hp2 : LeadsFrom (Planned s.foundAbsent) [.cpu]
      (Planned (s.foundAbsent.setMicro (.replay .p4))) :=
    .planned fun _ => cpuStep_replay_p2_absent (by simp [State.foundAbsent]) rfl
  have hp4 : LeadsFrom (Planned (s.foundAbsent.setMicro (.replay .p4))) [.cpu]
      (Planned (s.foundAbsent.setMicro (.replay .p4)).echoEnded) :=
    .planned fun _ => cpuStep_replay_p4 (by simp)
  exact (leads_replay_p0 hw hb).trans (hp1.trans (hp2.trans hp4))

end

/-- Settles O54: P0 checks `ECHO_BUSY`, and with L1 finding the slot absent P2 goes on at P4. -/
theorem replayOfAnAbsentSlotSendsNothing : Obligations.ReplayOfAnAbsentSlotSendsNothing := by
  refine ⟨fun s => exec_echoReplay_busy, fun s hb => ?_, fun s hr hw hb hidle habsent => ?_⟩
  · exact ⟨_, exec_echoReplay_starts hb, rfl, rfl, goesOnAt_setMicro rfl,
      keepsAllBut_echoStarted (by decide) (by decide) (keepsAllBut_refl _ s)⟩
  · obtain ⟨t, hrun, plan, rfl⟩ := (leads_replay_absent hw hb hidle habsent).runs hr
    have hkeeps : keepsAllBut [.echo, .frame, .cursor, .load, .model] s
        ((s.foundAbsent.setMicro (.replay .p4)).echoEnded.withPlan plan) :=
      keepsAllBut_plan (by decide) (keepsAllBut_echoEnded (by decide) (by decide)
        (keepsAllBut_setMicro (by decide) (keepsAllBut_loadedNone (by decide) (by decide)
          (by decide) (keepsAllBut_echoStarted (by decide) (by decide) (keepsAllBut_refl _ s)))))
    refine ⟨_, hrun, rfl, rfl, rfl, rfl, ?_, keepsAllBut_erase (p := .echo) ?_ hkeeps⟩
    · simp [nextCommand, State.foundAbsent, Ctx.advance]
    · exact ⟨rfl, hb.symm⟩

end Sys2Proof.Machine

namespace Sys2Proof.Machine

/-! ### The bytes that an echo command sends (45_echo.md R252, R256) -/

/-- The line can send: it is configured, no byte is in flight, and `TI` is clear. -/
structure LineState.Idle (l : LineState) : Prop where
  configured : l.cfg ≠ none
  free : l.txBusy = false
  acknowledged : l.ti = false

/-- The events of `n` bytes sent on line `k`. -/
def sentEvents (k : Line) (f : Nat → Byte) (n : Nat) : List Event :=
  (List.range n).map fun i => .tx k (f i)

theorem sentEvents_succ (k : Line) (f : Nat → Byte) (n : Nat) :
    sentEvents k f (n + 1) = sentEvents k f n ++ [.tx k (f n)] := by
  simp [sentEvents, List.range_succ]

/-- In `s`, a command that began in `v` has sent the bytes `f 0` to `f (n - 1)` on line `k`, which is
idle again. -/
structure HasSent (k : Line) (v : State) (f : Nat → Byte) (n : Nat) (s : State) : Prop where
  line : (s.line k).Idle
  trace : s.trace = v.trace ++ sentEvents k f n

section
variable {k : Line} {v s t : State} {f : Nat → Byte} {n : Nat} {c : Ctx} {b : Byte}

theorem HasSent.zero (h : (v.line k).Idle) : HasSent k v f 0 v := ⟨h, (List.append_nil _).symm⟩

/-- A state with the same line and the same trace. -/
theorem HasSent.of_eq (h : HasSent k v f n s) (hline : t.line k = s.line k)
    (htrace : t.trace = s.trace) : HasSent k v f n t :=
  ⟨hline ▸ h.line, htrace.trans h.trace⟩

/-- One more send. -/
theorem HasSent.next (h : HasSent k v f n s) (hsent : Sending k s c
      { s.line k with txData := some (f n), txBusy := false, ti := false } [.tx k (f n)] t) :
    HasSent k v f (n + 1) t where
  line := hsent.line ▸ ⟨h.line.configured, rfl, rfl⟩
  trace := by rw [hsent.trace, h.trace, List.append_assoc, sentEvents_succ]

end

/-! ### A replay of a stored run (45_echo.md R256) -/

theorem loadsAs_replay :
    LoadsAs (fun q => .replay (.p1Load q)) (Ctx.goOn (.replay .p2)) :=
  ⟨fun _ _ => rfl, fun _ _ => rfl⟩

/-- The parts that a replay on line `k` writes. -/
abbrev replayParts (k : Line) : List Part :=
  [.frame, .line k, .trace, .cursor, .load, .echo, .model]

/-- In `s`, the replay that began in `v` has loaded the `len` bytes of the slot, has sent `n` of them
and has its frame at `c`. -/
structure Replaying (v : State) (len : Nat) (c : Ctx) (n : Nat) (s : State) : Prop where
  keeps : keepsAllBut (replayParts v.cfg.echoLine) v s
  ctx : s.ctx = c
  sent : HasSent v.cfg.echoLine v v.slotByte n s
  echoBuf : s.echoBuf = v.echoBuf
  present : s.loadPresent = true
  length : s.loadLen.val = len
  loaded : ∀ j, j < len → s.loadBuf[j]? = some (some (v.slotByte j))

/-- The replay stands at P3 with byte `j`. -/
abbrev ReplayingByte (v : State) (len j : Nat) : State → Prop :=
  Replaying v len (v.ctx.goOn (.replay (.p3 j))) j

section
variable {v s : State} {len n j : Nat} {c : Ctx} {b : Byte}

theorem Replaying.cfg (h : Replaying v len c n s) : s.cfg = v.cfg := (h.keeps .run (by simp)).1

theorem Replaying.setMicro {m : Micro} (h : Replaying v len c n s) (plan : List Move) :
    Replaying v len (c.goOn m) n ((s.setMicro m).withPlan plan) where
  keeps := keepsAllBut_plan (by simp) (keepsAllBut_setMicro (by simp) h.keeps)
  ctx := (State.setMicro_ctx _ m).trans (congrArg (Ctx.goOn m) h.ctx)
  sent := h.sent.of_eq (State.setMicro_line _ m _) rfl
  echoBuf := h.echoBuf
  present := h.present
  length := h.length
  loaded := h.loaded

theorem cpuStep_replay_p3_sends (hm : s.ctx.micro = some (.replay (.p3 j)))
    (hlen : j < s.loadLen.val) (hbyte : s.loadBuf[j]? = some (some b)) (hb : printable b = true)
    (hline : (s.line s.cfg.echoLine).Idle) : cpuStep s =
      .next ((s.putInFlight s.cfg.echoLine b).setMicro (.replay (.p3Send j .m2))) := by
  have hgo : ¬(j = s.loadLen.val ∨ 27 ≤ j) := by omega
  rw [cpuStep_replay hm, replayNext, replayByte, if_neg hgo, hbyte]
  simp only [if_pos hb]
  exact writeLine_passes hline.configured hline.free

/-- P3 with byte `j`. -/
theorem leads_replay_byte (hk : v.cfg.hasLine v.cfg.echoLine = true) (hj : j < len)
    (hb : printable (v.slotByte j) = true) :
    LeadsFrom (ReplayingByte v len j) (sendMoves v.cfg.echoLine)
      (ReplayingByte v len (j + 1)) := by
  intro s rest h hr hp
  have hline : (s.line s.cfg.echoLine).Idle := h.cfg ▸ h.sent.line
  have hstart := fun plan => cpuStep_replay_p3_sends (s := s.withPlan plan)
    (congrArg Ctx.micro h.ctx) (h.length.symm ▸ hj) (h.loaded j hj) hb hline
  obtain ⟨t, hrun, hsent⟩ := leads_send (v := s) (sendsAs_replay s.cfg j) (h.cfg.symm ▸ hk) hr
    (h.cfg.symm ▸ hp) hstart
  rw [h.cfg] at hrun hsent
  obtain ⟨hpresent, hlength, hbuf⟩ := hsent.keeps .load (by simp)
  refine ⟨t, hrun, keepsAllBut_trans h.keeps hsent.keeps (by simp), ?_, h.sent.next hsent, ?_, ?_,
    ?_, ?_⟩
  · rw [hsent.ctx, h.ctx]; rfl
  · exact (hsent.keeps .echo (by simp)).1.trans h.echoBuf
  · exact hpresent.trans h.present
  · rw [hlength]; exact h.length
  · rw [hbuf]; exact h.loaded

/-- P3's end and P4. -/
theorem leads_replay_end :
    LeadsFrom (ReplayingByte v len len) [.cpu, .cpu]
      (fun t => Replaying v len v.ctx.advance len t ∧ t.echoBusy = false) := by
  have hp3 : LeadsFrom (ReplayingByte v len len) [.cpu]
      (Replaying v len (v.ctx.goOn (.replay .p4)) len) := .cpu fun s plan h =>
    ⟨_, (cpuStep_replay (s := s.withPlan plan) (congrArg Ctx.micro h.ctx)).trans
      (replayByte_at_end h.length.symm), h.setMicro plan⟩
  have hp4 : LeadsFrom (Replaying v len (v.ctx.goOn (.replay .p4)) len) [.cpu]
      (fun t => Replaying v len v.ctx.advance len t ∧ t.echoBusy = false) := .cpu fun s plan h =>
    ⟨_, cpuStep_replay_p4 (s := s.withPlan plan) (congrArg Ctx.micro h.ctx),
      { keeps := keepsAllBut_echoEnded (by simp) (by simp) (keepsAllBut_plan (by simp) h.keeps)
        ctx := by rw [State.echoEnded_ctx, State.withPlan_ctx, h.ctx]; rfl
        sent := h.sent.of_eq (State.finish_line _ _) rfl
        echoBuf := h.echoBuf
        present := h.present
        length := h.length
        loaded := h.loaded }, rfl⟩
  exact hp3.trans hp4

/-- P1 and P2 of a slot that is present. -/
theorem leads_replay_load (hv : v.cfg.valid = true) (hidle : v.flBusy = false) (hlen : len ≤ 27)
    (hpresent : v.slotByte 0 ≠ sentinel) (hbytes : ∀ j, j < len → v.slotByte j ≠ terminator)
    (hend : len < 27 → v.slotByte len = terminator) (hline : (v.line v.cfg.echoLine).Idle) :
    LeadsFrom (Planned (v.echoStarted (.replay .p1))) (loadMoves len ++ [.cpu])
      (ReplayingByte v len 0) := by
  have hload : LeadsFrom (Planned (v.echoStarted (.replay .p1))) (loadMoves len)
      (Replaying v len (v.ctx.goOn (.replay .p2)) 0) := by
    rintro _ rest ⟨plan, rfl⟩ hr hp
    obtain ⟨t, hrun, h⟩ := leads_load (v := v.echoStarted (.replay .p1)) loadsAs_replay hv hidle
      hlen hbytes hend hr hp fun plan => cpuStep_replay_p1_present
        (s := (v.echoStarted (.replay .p1)).withPlan plan) (by simp) hidle hpresent
    refine ⟨t, hrun, ?_, ?_, ?_, (h.keeps .echo (by simp)).1, h.present, h.length,
      h.buffer.loaded⟩
    · exact keepsAllBut_trans (keepsAllBut_echoStarted (by simp) (by simp) (keepsAllBut_refl _ v))
        h.keeps (by simp)
    · rw [h.ctx]; simp [Ctx.goOn]
    · exact (HasSent.zero hline).of_eq
        ((h.keeps (.line _) (by simp)).trans (State.setMicro_line _ _ _)) (h.keeps .trace (by simp))
  have hp2 : LeadsFrom (Replaying v len (v.ctx.goOn (.replay .p2)) 0) [.cpu]
      (ReplayingByte v len 0) := .cpu fun s plan h =>
    ⟨_, cpuStep_replay_p2_present (s := s.withPlan plan) (congrArg Ctx.micro h.ctx) h.present,
      h.setMicro plan⟩
  exact hload.trans hp2

end

theorem hasLine_echoLine {p : Params} (h : p.valid = true) : p.hasLine p.echoLine = true := by
  simp only [Params.valid, Bool.and_eq_true] at h
  exact h.2

theorem printable_ne {b c : Byte} (h : printable b = true) (hc : printable c = false) : b ≠ c := by
  rintro rfl
  exact Bool.false_ne_true (hc.symm.trans h)

/-- Settles O55: the load reads the run up to its end, each byte of it is sent in turn, and P3's test
of `LOAD_LEN` ends the replay. -/
theorem replaySendsTheStoredRun : Obligations.ReplaySendsTheStoredRun := by
  intro s k hr hv hw hb hidle hend hbytes hcfg htx hti
  have hprintable : ∀ j, j < k → printable (s.slotByte j) = true := fun j hj =>
    printable_iff.2 (hbytes j hj)
  have hpresent : s.slotByte 0 ≠ sentinel := by
    rcases Nat.eq_zero_or_pos k with rfl | hpos
    · rcases hend with ⟨-, hzero⟩ | hfull
      · exact fun h => absurd (h.symm.trans hzero) (by decide)
      · cases hfull
    · exact printable_ne (hprintable 0 hpos) (by decide)
  have hload := leads_replay_load hv hidle (len := k) (by omega) hpresent
    (fun j hj => printable_ne (hprintable j hj) (by decide)) (fun hk => by
      rcases hend with ⟨-, hzero⟩ | rfl
      · exact hzero
      · exact absurd hk (by decide)) ⟨hcfg, htx, hti⟩
  have hsends := LeadsFrom.rounds (P := ReplayingByte s k) fun j hj =>
    leads_replay_byte (hasLine_echoLine hv) hj (hprintable j hj)
  obtain ⟨t, hrun, h, hbusy⟩ :=
    (((leads_replay_p0 hw hb).trans hload).trans (hsends.trans leads_replay_end)).runs hr
  refine ⟨t, ?_, h.sent.trace, h.present, h.length, hbusy, h.echoBuf, h.sent.line.free,
    h.sent.line.acknowledged, h.ctx, h.keeps⟩
  simpa [replayMoves] using hrun

end Sys2Proof.Machine

namespace Sys2Proof.Machine

/-! ### `ECHO.ONBYTE` of a letter (45_echo.md R252) -/

theorem savesAs_onbyte (start : Byte) (len : Nat) :
    SavesAs len (fun q => .onbyte start len (.e4Save q)) (Ctx.goOn (.onbyte start len .e5)) :=
  ⟨fun _ _ => rfl, fun _ _ => rfl⟩

/-- Byte `i` of the run as it is stored: a letter, or the terminator after them. -/
def runByte (start : Byte) (len i : Nat) : Byte := if i < len then runChar start i else terminator

/-- `buf` holds the first `k` of the bytes `f`, and keeps the rest of `old`. -/
structure Filled (old : Vector (Option Byte) 27) (f : Nat → Byte) (k : Nat)
    (buf : Vector (Option Byte) 27) : Prop where
  filled : ∀ j, j < k → buf[j]? = some (some (f j))
  others : ∀ j, k ≤ j → buf[j]? = old[j]?

section
variable {start : Byte} {len i k : Nat} {old buf : Vector (Option Byte) 27} {f : Nat → Byte}
  {b : Byte}

theorem runByte_lt (h : i < len) : runByte start len i = runChar start i := if_pos h

theorem runByte_end : runByte start len len = terminator := if_neg (Nat.lt_irrefl len)

theorem Filled.set (h : Filled old f k buf) (hk : k < 27) (hb : b = f k) :
    Filled old f (k + 1) (buf.setIfInBounds k (some b)) := by
  subst hb
  refine ⟨fun j hj => ?_, fun j hj => ?_⟩
  · rcases Nat.lt_succ_iff_lt_or_eq.1 hj with hlt | rfl
    · rw [Vector.getElem?_setIfInBounds_ne (Nat.ne_of_gt hlt), h.filled j hlt]
    · exact Vector.getElem?_setIfInBounds_self_of_lt hk
  · rw [Vector.getElem?_setIfInBounds_ne (by omega), h.others j (by omega)]

/-- What a save of `n` filled bytes, with the terminator as byte `n`, stores. -/
theorem SavedByte.eq_runByte (h : SavedByte len i buf b)
    (hbuf : Filled old (runByte start len) k buf) (hk : len ≤ k) (hi : i ≤ len) :
    b = runByte start len i := by
  rcases Nat.lt_or_eq_of_le hi with hlt | rfl
  · have := (h.of_lt hlt).symm.trans (hbuf.filled i (Nat.lt_of_lt_of_le hlt hk))
    rwa [Option.some_inj, Option.some_inj] at this
  · rw [h.of_ge (Nat.le_refl _), runByte_end]

end

/-- The parts that an echo on line `k` writes up to its save. -/
abbrev letterParts (k : Line) : List Part := [.frame, .line k, .trace, .echo, .model]

/-- In `s`, the echo that began in `v` goes on at `p`, having sent `n` letters and put `k` bytes into
`ECHO_BUF`. -/
structure Echoing (v : State) (start : Byte) (len : Nat) (p : EchoPos) (n k : Nat) (s : State) :
    Prop where
  keeps : keepsAllBut (letterParts v.cfg.echoLine) v s
  ctx : s.ctx = v.ctx.goOn (.onbyte start len p)
  sent : HasSent v.cfg.echoLine v (runChar start) n s
  buffer : Filled v.echoBuf (runByte start len) k s.echoBuf
  wf : s.mem.wf

/-- The echo has sent and stored `i` letters: it stands at the next, or at the save. -/
abbrev EchoingLetter (v : State) (start : Byte) (len i : Nat) : State → Prop :=
  Echoing v start len (if i < len then .e2 i else .e4) i i

/-- The parts that an echo on line `k` writes. -/
abbrev echoParts (k : Line) : List Part :=
  [.frame, .line k, .trace, .flash, .cursor, .engine, .echo, .model]

/-- In `s`, the echo that began in `v` has sent the run, has put it and a terminator into `ECHO_BUF`
and the slot, and has its frame at `c`. -/
structure Echoed (v : State) (start : Byte) (len : Nat) (c : Ctx) (s : State) : Prop where
  keeps : keepsAllBut (echoParts v.cfg.echoLine) v s
  ctx : s.ctx = c
  sent : HasSent v.cfg.echoLine v (runChar start) len s
  buffer : Filled v.echoBuf (runByte start len) (len + 1) s.echoBuf
  stored : ∀ i, i ≤ len → s.mem.read (v.cfg.slotAddr.toNat + i) = runByte start len i
  others : ∀ x, x < v.cfg.sectorBase v.cfg.slotAddr.toNat ∨
    v.cfg.sectorBase v.cfg.slotAddr.toNat + v.cfg.sectorSize ≤ x →
    s.mem.read x = v.mem.read x ∧ s.mem.fresh x = v.mem.fresh x
  addr : s.addr = some (v.cfg.slotAddr + BitVec.ofNat 16 (len + 1))
  idle : s.flBusy = false
  ended : s.flOp = none

section
variable {v s : State} {start : Byte} {len i n k : Nat} {p : EchoPos} {b : ByteOp} {w : CmdWord}
  {letter : Byte}

theorem cpuStep_onbyte (hm : s.ctx.micro = some (.onbyte start len p)) :
    cpuStep s = onbyteNext start len p s := cpuStep_resume hm

theorem cpuStep_onbyte_e2 (hm : s.ctx.micro = some (.onbyte start len (.e2 i)))
    (hline : (s.line s.cfg.echoLine).Idle) : cpuStep s =
      .next ((s.putInFlight s.cfg.echoLine (runChar start i)).setMicro
        (.onbyte start len (.e2Send i .m2))) :=
  (cpuStep_onbyte hm).trans (writeLine_passes hline.configured hline.free)

/-- E4: the terminator is in the buffer. -/
def State.terminated (s : State) (len : Nat) : State :=
  { s with echoBuf := s.echoBuf.setIfInBounds len (some terminator) }

@[simp] theorem State.terminated_ctx : (s.terminated len).ctx = s.ctx := rfl

theorem cpuStep_onbyte_e4 (hm : s.ctx.micro = some (.onbyte start len .e4))
    (hb : s.flBusy = false) : cpuStep s = .next
      ((({ s.terminated len with addr := some s.cfg.slotAddr } : State).issue
        (.erase (s.cfg.sectorBase s.cfg.slotAddr.toNat))).setMicro
          (.onbyte start len (.e4Save .s2))) :=
  (cpuStep_onbyte hm).trans (saveStart_issues (s := s.terminated len) hb)

theorem cpuStep_onbyte_e5 (hm : s.ctx.micro = some (.onbyte start len .e5)) :
    cpuStep s = .next s.echoEnded := cpuStep_onbyte hm

theorem Echoing.cfg (h : Echoing v start len p n k s) : s.cfg = v.cfg := (h.keeps .run (by simp)).1

/-- E1 of a letter. -/
theorem leads_onbyte_e1 (hw : v.atWord w) (hd : decode w = .ok (.echoOnbyte b))
    (hop : operandIs b v letter) (hletter : LetterFrom letter start)
    (hlen : len = letter.toNat - start.toNat + 1) (hb : v.echoBusy = false)
    (hline : (v.line v.cfg.echoLine).Idle) (hwf : v.mem.wf) :
    LeadsFrom (Planned v) [.cpu] (EchoingLetter v start len 0) := by
  have hpos : 0 < len := hlen ▸ Nat.succ_pos _
  refine .cpu ?_
  rintro _ plan ⟨_, rfl⟩
  refine ⟨_, (cpuStep_exec (s := v.withPlan plan) hw hd).trans
    (exec_echoOnbyte_starts (s := v.withPlan plan) hop hletter hb), ?_, ?_, ?_, ?_, hwf⟩
  · exact keepsAllBut_echoStarted (by simp) (by simp)
      (keepsAllBut_plan (by simp) (keepsAllBut_refl _ v))
  · rw [State.echoStarted_ctx, if_pos hpos, hlen]; rfl
  · exact (HasSent.zero hline).of_eq (State.setMicro_line _ _ _) rfl
  · exact ⟨fun j hj => absurd hj (Nat.not_lt_zero j), fun _ _ => rfl⟩

/-- E2 of letter `i`. -/
theorem leads_onbyte_e2 (hk : v.cfg.hasLine v.cfg.echoLine = true) :
    LeadsFrom (Echoing v start len (.e2 i) i k) (sendMoves v.cfg.echoLine)
      (Echoing v start len (.e3 i) (i + 1) k) := by
  intro s rest h hr hp
  have hline : (s.line s.cfg.echoLine).Idle := h.cfg ▸ h.sent.line
  have hstart := fun plan =>
    cpuStep_onbyte_e2 (s := s.withPlan plan) (congrArg Ctx.micro h.ctx) hline
  obtain ⟨t, hrun, hsent⟩ := leads_send (v := s) (sendsAs_onbyte s.cfg start len i)
    (h.cfg.symm ▸ hk) hr (h.cfg.symm ▸ hp) hstart
  have hwf := run_keeps_wf hrun.run h.wf
  rw [h.cfg] at hrun hsent
  refine ⟨t, hrun, keepsAllBut_trans h.keeps hsent.keeps (by simp), ?_, h.sent.next hsent, ?_, hwf⟩
  · rw [hsent.ctx, h.ctx]; rfl
  · rw [(hsent.keeps .echo (by simp)).1]; exact h.buffer

/-- E3 of letter `i`. -/
theorem leads_onbyte_e3 (hlen : len ≤ 26) (hi : i < len) :
    LeadsFrom (Echoing v start len (.e3 i) n i) [.cpu]
      (Echoing v start len (if i + 1 < len then .e2 (i + 1) else .e4) n (i + 1)) := .cpu
  fun s plan h => ⟨_, cpuStep_onbyte (s := s.withPlan plan) (congrArg Ctx.micro h.ctx),
    { keeps := keepsAllBut_setMicro (by simp) (keepsAllBut_echo (by simp)
        (keepsAllBut_plan (by simp) h.keeps))
      ctx := setMicro_ctx_of h.ctx
      sent := h.sent.of_eq (State.setMicro_line _ _ _) rfl
      buffer := h.buffer.set (by omega) (runByte_lt hi).symm
      wf := h.wf }⟩

theorem leads_onbyte_letter (hk : v.cfg.hasLine v.cfg.echoLine = true) (hlen : len ≤ 26)
    (hi : i < len) : LeadsFrom (EchoingLetter v start len i) (sendMoves v.cfg.echoLine ++ [.cpu])
      (EchoingLetter v start len (i + 1)) := by
  rw [EchoingLetter, if_pos hi]
  exact (leads_onbyte_e2 hk).trans (leads_onbyte_e3 hlen hi)

/-- E4, with the save. -/
theorem leads_onbyte_e4 (hv : v.cfg.valid = true) (hlen : len ≤ 26) (hidle : v.flBusy = false) :
    LeadsFrom (EchoingLetter v start len len) (saveMoves len)
      (Echoed v start len (v.ctx.goOn (.onbyte start len .e5))) := by
  rw [EchoingLetter, if_neg (Nat.lt_irrefl len)]
  intro s rest h hr hp
  have hbuf : Filled v.echoBuf (runByte start len) (len + 1) (s.terminated len).echoBuf :=
    h.buffer.set (by omega) runByte_end.symm
  have hissue := fun plan => cpuStep_onbyte_e4 (s := s.withPlan plan) (congrArg Ctx.micro h.ctx)
    ((h.keeps .engine (by simp)).1.trans hidle)
  obtain ⟨t, hrun, hsave⟩ := leads_save (v := s.terminated len) (savesAs_onbyte start len)
    (h.cfg.symm ▸ hv) hlen h.wf (fun i hi => ⟨_, hbuf.filled i (Nat.lt_succ_of_lt hi)⟩) hr hp hissue
  have hcfg : (s.terminated len).cfg = v.cfg := h.cfg
  obtain ⟨hlow, -⟩ := slot_inSector hv (Nat.zero_le 26)
  obtain ⟨-, hhigh⟩ := slot_inSector hv hlen
  refine ⟨t, hrun, ?_, ?_, ?_, ?_, fun i hi => ?_, fun x hx => ?_, ?_, hsave.idle, hsave.ended⟩
  · exact keepsAllBut_trans (keepsAllBut_echo (by simp) (keepsAllBut_mono h.keeps (by simp)))
      hsave.keeps (by simp)
  · rw [hsave.ctx, saveCtx_over, State.terminated_ctx, h.ctx]; rfl
  · exact h.sent.of_eq (hsave.keeps (.line _) (by simp)) (hsave.keeps .trace (by simp))
  · rw [(hsave.keeps .echo (by simp)).1]; exact hbuf
  · have := (hsave.stored i (Nat.lt_succ_of_le hi)).1.eq_runByte hbuf (Nat.le_succ len) hi
    rwa [hcfg] at this
  · obtain ⟨hread, hfresh⟩ := hsave.others x (by rw [hcfg]; omega)
    obtain ⟨heread, hefresh⟩ := Memory.erase_outside (m := s.mem) hx
    obtain ⟨hsread, hsfresh⟩ := h.keeps .flash (by simp) x
    rw [State.slotErased, hcfg] at hread hfresh
    exact ⟨hread.trans (heread.trans hsread), hfresh.trans (hefresh.trans hsfresh)⟩
  · rw [hsave.addr, hcfg]

/-- E5. -/
theorem leads_onbyte_e5 :
    LeadsFrom (Echoed v start len (v.ctx.goOn (.onbyte start len .e5))) [.cpu]
      (fun t => Echoed v start len v.ctx.advance t ∧ t.echoBusy = false) := .cpu
  fun s plan h => ⟨_, cpuStep_onbyte_e5 (s := s.withPlan plan) (congrArg Ctx.micro h.ctx),
    { keeps := keepsAllBut_echoEnded (by simp) (by simp) (keepsAllBut_plan (by simp) h.keeps)
      ctx := by rw [State.echoEnded_ctx, State.withPlan_ctx, h.ctx]; rfl
      sent := h.sent.of_eq (State.finish_line _ _) rfl
      buffer := h.buffer
      stored := h.stored
      others := h.others
      addr := h.addr
      idle := h.idle
      ended := h.ended }, rfl⟩

end

/-- Settles O53: each letter is sent by E2 and put into `ECHO_BUF` by E3, and E4's save stores what
O29 says. -/
theorem echoSendsAndStoresTheRun : Obligations.EchoSendsAndStoresTheRun := by
  intro s w b v start len hr hv hwf hw hd hop hletter hlen hb hidle hcfg htx hti
  have hfits : len ≤ 26 := hlen ▸ length_le_of_letter hletter
  have hstart := leads_onbyte_e1 hw hd hop hletter hlen hb ⟨hcfg, htx, hti⟩ hwf
  have hletters := LeadsFrom.rounds (P := EchoingLetter s start len) fun i hi =>
    leads_onbyte_letter (hasLine_echoLine hv) hfits hi
  have hsave := leads_onbyte_e4 (start := start) hv hfits hidle
  obtain ⟨t, hrun, h, hbusy⟩ :=
    (((hstart.trans hletters).trans hsave).trans leads_onbyte_e5).runs hr
  refine ⟨t, hrun, h.sent.trace, fun i hi => ⟨?_, ?_⟩, ?_, ?_, h.buffer.others, h.others, h.addr,
    hbusy, h.idle, h.ended, h.sent.line.free, h.sent.line.acknowledged, h.ctx, h.keeps⟩
  · exact (h.stored i (Nat.le_of_lt hi)).trans (runByte_lt hi)
  · rw [h.buffer.filled i (Nat.lt_succ_of_lt hi), runByte_lt hi]; rfl
  · exact (h.stored len (Nat.le_refl len)).trans runByte_end
  · rw [h.buffer.filled len (Nat.lt_succ_self len), runByte_end]

end Sys2Proof.Machine

namespace Sys2Proof.Machine

/-! ### Frames of a return and of a gate command (46_control.md R284-R288) -/

section
variable {s u : State} {ps : List Part}

theorem keepsAllBut_handlers {hs : List Handler} (hf : Part.frame ∈ ps) (hst : Part.stack ∈ ps)
    (h : keepsAllBut ps s u) : keepsAllBut ps s { u with handlers := hs } := by
  intro p hp
  have hk := h p hp
  cases p with
  | frame => exact absurd hf hp
  | stack => exact absurd hst hp
  | _ => exact hk

theorem keepsAllBut_ien {e : Ien} (hf : Part.gate ∈ ps) (h : keepsAllBut ps s u) :
    keepsAllBut ps s { u with ien := e } := by
  intro p hp
  have hk := h p hp
  cases p with
  | gate => exact absurd hf hp
  | _ => exact hk

/-- A command that writes `IEN` and ends changes nothing else. -/
theorem keepsAllBut_finish_ien {e : Ien} :
    keepsAllBut [.frame, .gate] s ({ s with ien := e } : State).finish :=
  keepsAllBut_finish (by decide) (keepsAllBut_ien (by decide) (keepsAllBut_refl _ s))

theorem leaveHandler_main (h : s.handlers = []) :
    leaveHandler s = .fault (.retiNoHandler s.info) := by
  simp [leaveHandler, h]

end

/-! ### The sources of a run (46_control.md R287, R288; 30_encoding.md R115) -/

/-- Only the line of RX1 can be absent (R115), so with two lines for RX1 each source has its line. -/
theorem hasLine_of_source {p : Params} {src : Source} (h : src = .rx .l1 → p.nLines = .two)
    (k : Line) (hk : src = .rx k) : p.hasLine k = true := by
  cases k with
  | l0 => rfl
  | l1 => simp [Params.hasLine, h hk]

theorem withSource_absent {s : State} {r : Result} (h : s.cfg.nLines = .one) :
    withSource (.rx .l1) s r = .refused (.noSuchLine s.info) :=
  withLine_absent (by simp [Params.hasLine, h])

/-! ### The CPU's turn (46_control.md R281) -/

/-- Settles O5: the CPU's step at a word that decodes is `exec`, and the step records its stop. -/
theorem stepRunsTheDecodedCommand : Obligations.StepRunsTheDecodedCommand := by
  intro s rest w i hr hp hw hd
  rw [step_cpu hr hp, cpuStep_exec (s := { s with plan := rest }) hw hd]

/-- Settles O6: with a micro-state in the frame the CPU's step is `resume`, and no word is asked
for. -/
theorem stepContinuesTheCommandInProgress : Obligations.StepContinuesTheCommandInProgress := by
  intro s rest m hr hp hm
  rw [step_cpu hr hp, cpuStep_resume (s := { s with plan := rest }) hm]

/-! ### The control commands (46_control.md R282-R284) -/

/-- Settles O10: `CTL.NOP` is nothing but the end of a command. -/
theorem nopOnlyAdvances : Obligations.NopOnlyAdvances :=
  ⟨decodeOfEncodeIsTheCommand .nop rfl, fun s => ⟨_, rfl, nextCommand_finish rfl,
    keepsAllBut_finish (by decide) (keepsAllBut_refl _ s)⟩⟩

/-- Settles O11: the CPU's step at `CTL.IDLE` changes nothing, so it can be taken any number of
times. -/
theorem idleStaysAtItsCommand : Obligations.IdleStaysAtItsCommand := by
  refine ⟨fun _ => rfl, fun s n hr hw => ?_⟩
  have hd : decode 0x010000 = .ok .idle := decodeOfEncodeIsTheCommand .idle rfl
  have hold : ∀ plan, cpuStep (s.withPlan plan) = .next (s.withPlan plan) := fun plan =>
    cpuStep_exec (s := s.withPlan plan) hw hd
  have hrun := leads_holding hr hold n []
  rw [List.append_nil] at hrun
  exact hrun.runs

/-- Settles O12: the frame below is the new top, and main with all other frames stands where it
was. -/
theorem retiResumesThePreemptedFrame : Obligations.RetiResumesThePreemptedFrame := by
  refine ⟨decodeOfEncodeIsTheCommand .reti rfl, fun _ => leaveHandler_main, fun s h hs hcons => ?_⟩
  have hkeeps : keepsAllBut [.frame, .stack, .latch] s { s with handlers := hs, dl := h.savedDL } :=
    keepsAllBut_latch (u := { s with handlers := hs }) (by decide)
      (keepsAllBut_handlers (by decide) (by decide) (keepsAllBut_refl _ s))
  exact ⟨_, leaveHandler_next.2 ⟨h, hs, hcons, rfl⟩, rfl, rfl, rfl, hkeeps⟩

/-! ### The gate commands (46_control.md R285-R288) -/

/-- Settles O17: each gate command writes `IEN` and ends; the one check is that of the line of RX1. -/
theorem gateCommandsWriteTheEnableTheyName : Obligations.GateCommandsWriteTheEnableTheyName := by
  refine ⟨fun s => ?_, fun s => ?_, fun s src hsrc => ?_, fun s hone => ?_⟩
  · exact ⟨_, rfl, rfl, nextCommand_finish rfl, keepsAllBut_finish_ien⟩
  · exact ⟨_, rfl, rfl, nextCommand_finish rfl, keepsAllBut_finish_ien⟩
  · have hline := hasLine_of_source hsrc
    refine ⟨⟨_, withSource_next.2 ⟨hline, rfl⟩, ?_, nextCommand_finish rfl, keepsAllBut_finish_ien⟩,
      ⟨_, withSource_next.2 ⟨hline, rfl⟩, ?_, nextCommand_finish rfl, keepsAllBut_finish_ien⟩⟩
    · rcases src with _ | _ | _ <;> rfl
    · rcases src with _ | _ | _ <;> rfl
  · exact ⟨withSource_absent hone, withSource_absent hone⟩

end Sys2Proof.Machine

namespace Sys2Proof.Machine

/-! ### A stopped machine, and the step that stops it (60_exceptions.md R300, R302) -/

section
variable {s t : State}

theorem step_faulted {f : Fault} (h : s.fault = some f) : step s = .fault f := by
  simp only [step, stepOf, h]

theorem step_refused {r : Refusal} (hf : s.fault = none) (hr : s.refused = some r) :
    step s = .refused r := by
  simp only [step, stepOf, hf, hr]

/-- No agent's step writes `FAULT` or `REFUSED`: only the recording of a stop does. A power cycle
clears both. -/
theorem takeMove_running {m : Move} (h : takeMove m s = .next t) (hr : s.running = true) :
    t.running = true := by
  rcases takeMove_next h with h | ⟨_, -, -, h⟩ | ⟨-, -, rfl⟩ | ⟨_, -, -, -, rfl⟩ |
    ⟨_, _, _, _, -, -, rfl⟩ | ⟨-, -, rfl⟩ | ⟨-, rfl⟩
  · exact (running_of_cpuStep h).trans hr
  · obtain ⟨_, -, -, -, -, -, -, rfl⟩ := enterSource_next h
    exact hr
  · exact hr
  · unfold lineComplete
    split <;> exact hr
  · unfold lineDeliver
    split <;> exact hr
  · exact flashComplete_running.trans hr
  · rfl

end

/-- Settles O7: the step looks at `FAULT`, then at `REFUSED`, before it looks at the plan. -/
theorem stoppedMachineHasNoStep : Obligations.StoppedMachineHasNoStep :=
  ⟨fun _ _ => step_faulted, fun _ _ => step_refused⟩

/-- Settles O8: an agent's own step leaves the machine running, so a step that stops it is one that
records a stop. -/
theorem stoppingChangesNothingElse : Obligations.StoppingChangesNothingElse := by
  intro s t hr h hstop
  obtain ⟨-, -, hm | ⟨f, -, rfl⟩ | ⟨r, -, rfl⟩⟩ := step_next h
  · have hrun : t.running = true := takeMove_running hm hr
    exact absurd (hrun.symm.trans hstop) (by decide)
  · exact .inl ⟨f, rfl⟩
  · exact .inr ⟨r, rfl⟩

/-! ### Acceptable sources (60_exceptions.md R304-R306) -/

section
variable {s : State} {src : Source}

/-- A priority is above the running level when it is above that of the executing handler, if there
is one: main's level is below every priority. -/
theorem level_lt_iff {p : Fin 2} :
    s.level < (p.val : Int) ↔ ∀ h ∈ s.handlers.head?, h.level < p := by
  have hmain : -1 < (p.val : Int) := by omega
  unfold State.level
  cases s.handlers with
  | nil => simp [hmain]
  | cons h hs => simp

theorem acceptable_iff :
    acceptable src s = true ↔
      s.fault = none ∧ s.refused = none ∧ s.ien.ea = true ∧ enabled src s = true ∧
        pending src s = true ∧ s.level < ((Params.prioOf s.cfg src).val : Int) := by
  simp [acceptable, and_assoc]

theorem mem_sources (src : Source) : src ∈ sources := by
  rcases src with _ | _ | _ <;> decide

theorem mayEnter_iff :
    mayEnter src s = true ↔ acceptable src s = true ∧
      ∀ other, acceptable other s = true →
        Params.prioOf s.cfg other ≤ Params.prioOf s.cfg src := by
  simp [mayEnter, mem_sources, ← imp_iff_not_or, ← Bool.not_eq_true]

/-- Which agent is to move next has no part in which source may be entered. -/
theorem mayEnter_popMove : mayEnter src s.popMove = mayEnter src s := rfl

theorem hasLine_l1 {p : Params} : p.hasLine .l1 = true ↔ p.nLines = .two := beq_iff_eq

end

/-- Settles O14: `acceptable` is the conjunction of the conditions of R305, read for each source and
for main and a handler. -/
theorem acceptableExactlyWhenTheRuleSays : Obligations.AcceptableExactlyWhenTheRuleSays := by
  intro s src
  rw [acceptable_iff, level_lt_iff]
  cases src with
  | tick => cases s.handlers <;> simp [enabled, pending, Params.prioOf, and_assoc]
  | rx k =>
    cases k with
    | l0 => cases s.handlers <;> simp [enabled, pending, State.line, Params.prioOf, and_assoc]
    | l1 =>
      cases s.handlers <;>
        simp [enabled, pending, hasLine_l1, State.line, Params.prioOf, and_assoc]

/-! ### Interrupt entry (60_exceptions.md R310) -/

section
variable {s : State} {src : Source} {k : Line} {rest : List Move}

theorem step_accept (hr : s.running = true) (hp : s.plan = .accept src :: rest)
    (hm : mayEnter src s = true) :
    step s = recordStop (s.withPlan rest) (enterSource src (s.withPlan rest)) := by
  simp only [State.running, Bool.and_eq_true, Option.isNone_iff_eq_none] at hr
  rw [step_planned hr.1 hr.2 hp]
  exact congrArg _ (if_pos hm)

theorem enterSource_no_handler (hk : k ≠ s.cfg.echoLine) :
    enterSource (.rx k) s = .fault (.noHandler s.info k) := if_neg hk

/-- The handler frame that the entry of a source pushes (R310). -/
def entryFrame (src : Source) (s : State) : Handler where
  kind := match src with | .tick => .tick | .rx k => .rx k
  level := Params.prioOf s.cfg src
  ctx :=
    { pc := (match src with | .tick => tickVector | .rx _ => rxVector)
      past := false, micro := none }
  savedDL := s.dl

/-- The state after the entry of a source. -/
def State.entered (s : State) (src : Source) : State :=
  { s with
    tf := match src with | .tick => false | .rx _ => s.tf
    handlers := entryFrame src s :: s.handlers }

theorem enterSource_enters (h : ∀ k, src = .rx k → k = s.cfg.echoLine) :
    enterSource src s = .next (s.entered src) := by
  cases src with
  | tick => rfl
  | rx k => exact if_pos (h k rfl)

theorem keepsAllBut_entered :
    keepsAllBut [.frame, .stack, .timer, .model] s ((s.withPlan rest).entered src) :=
  have hplan : keepsAllBut [.frame, .stack, .timer, .model] s (s.withPlan rest) :=
    keepsAllBut_plan (by decide) (keepsAllBut_refl _ s)
  keepsAllBut_handlers (u := { s.withPlan rest with tf := (s.entered src).tf }) (by decide)
    (by decide) (keepsAllBut_timer (by decide) hplan)

end

/-- Settles O13: the step is the entry itself, and of the elements it writes only `TF` is not of the
stack. -/
theorem entryPushesTheHandlerFrame : Obligations.EntryPushesTheHandlerFrame := by
  intro s src rest hr hp hm
  rw [step_accept hr hp hm]
  refine ⟨?_, fun hk => ?_⟩
  · rintro k rfl hk
    rw [enterSource_no_handler (s := s.withPlan rest) hk]
    rfl
  · rw [enterSource_enters (s := s.withPlan rest) hk]
    exact ⟨_, rfl, rfl, rfl, rfl, rfl, rfl, rfl, keepsAllBut_entered⟩

/-! ### The levels of the stack (60_exceptions.md R305, R312, R313) -/

/-- The levels of the handlers, the executing one's first. -/
def State.levels (s : State) : List (Fin 2) := s.handlers.map Handler.level

section
variable {s t : State}

theorem length_levels (s : State) : s.levels.length = s.handlers.length := List.length_map _

theorem nested_iff_levels : s.nested ↔ s.levels.Pairwise fun above below => below < above := by
  unfold State.nested State.levels
  rw [List.pairwise_map]

theorem finish_levels (s : State) : s.finish.levels = s.levels := s.setCtx_levels _

theorem setMicro_levels (s : State) (m : Micro) : (s.setMicro m).levels = s.levels :=
  s.setCtx_levels _

theorem KeepsControl.levels (h : KeepsControl s t) : t.levels = s.levels :=
  congrArg (List.map Handler.level) h.handlers

theorem MicroStep.levels (h : MicroStep s t) : t.levels = s.levels := by
  cases h with
  | holds h => exact h.levels
  | ends h => exact (finish_levels _).trans h.levels
  | goesOn h => exact (setMicro_levels _ _).trans h.levels

/-- Only a return from a handler changes the stack in a CPU step: it takes the top level off. -/
theorem cpuStep_levels (h : cpuStep s = .next t) : t.levels <:+ s.levels := by
  rcases cpuStep_cases h with hl | ⟨_, _, _, -, -, -, -, rfl⟩ | hs
  · obtain ⟨top, below, hcons, rfl⟩ := leaveHandler_next.1 hl
    unfold State.levels
    rw [hcons]
    exact List.suffix_cons _ _
  · rw [finish_levels]
    exact List.suffix_rfl
  · exact hs.levels ▸ List.suffix_rfl

/-- A step of an agent is the entry of a source, or it leaves a lower part of the stack: all of it, or
what a return leaves, or nothing after a power cycle. -/
theorem takeMove_levels {m : Move} (h : takeMove m s = .next t) :
    t.levels <:+ s.levels ∨
    ∃ src, m = .accept src ∧ mayEnter src s = true ∧ enterSource src s = .next t := by
  rcases takeMove_next h with h | hsrc | ⟨-, -, rfl⟩ | ⟨_, -, -, -, rfl⟩ |
    ⟨_, _, _, _, -, -, rfl⟩ | ⟨-, -, rfl⟩ | ⟨-, rfl⟩
  · exact .inl (cpuStep_levels h)
  · exact .inr hsrc
  · exact .inl ((KeepsControl.timerClock s).levels ▸ List.suffix_rfl)
  · exact .inl ((KeepsControl.lineComplete _ s).levels ▸ List.suffix_rfl)
  · exact .inl ((KeepsControl.lineDeliver _ _ _ _ s).levels ▸ List.suffix_rfl)
  · exact .inl ((KeepsControl.flashComplete s).levels ▸ List.suffix_rfl)
  · exact .inl List.nil_suffix

/-- A step leaves a lower part of the stack, or it pushes the frame of a source that may be entered,
at that source's priority. -/
theorem step_levels (h : step s = .next t) :
    t.levels <:+ s.levels ∨
    ∃ src top, s.move = .accept src ∧ mayEnter src s = true ∧ t.handlers = top :: s.handlers ∧
      top.level = Params.prioOf s.cfg src := by
  obtain ⟨-, -, hm | ⟨_, -, rfl⟩ | ⟨_, -, rfl⟩⟩ := step_next h
  · rcases takeMove_levels hm with hsuffix | ⟨src, hmove, hmay, henter⟩
    · exact .inl hsuffix
    · obtain ⟨top, hcons, hlevel, -⟩ := enterSource_next henter
      exact .inr ⟨src, top, hmove, mayEnter_popMove.symm.trans hmay, hcons, hlevel⟩
  · exact .inl List.suffix_rfl
  · exact .inl List.suffix_rfl

/-- In a nested stack the executing handler has the highest level, so a priority above the running
level is above them all. -/
theorem State.nested.cons {top : Handler} (hs : s.nested) (h : s.level < (top.level.val : Int))
    (ht : t.handlers = top :: s.handlers) : t.nested := by
  unfold State.nested at hs ⊢
  rw [level_lt_iff] at h
  rw [ht]
  refine List.pairwise_cons.2 ⟨fun below hbelow => ?_, hs⟩
  cases hh : s.handlers with
  | nil => rw [hh] at hbelow; cases hbelow
  | cons first others =>
    rw [hh] at h hs hbelow
    have hfirst : first.level < top.level := h first rfl
    rcases List.mem_cons.1 hbelow with rfl | hmem
    · exact hfirst
    · exact (List.rel_of_pairwise_cons hs hmem).trans hfirst

/-- There are two levels, and in a nested stack none occurs twice. -/
theorem State.nested.length_le (h : s.nested) : s.handlers.length ≤ 2 := by
  have hnodup : s.levels.Nodup := (nested_iff_levels.1 h).imp fun hlt => hlt.ne'
  rw [← length_levels]
  exact hnodup.length_le_card

end

/-- Settles O15: no step but an entry makes the stack deeper, and only a source that may be entered
is. -/
theorem onlyAHigherPriorityPreempts : Obligations.OnlyAHigherPriorityPreempts := by
  intro s t h hdeeper
  rcases step_levels h with hsuffix | ⟨src, top, hmove, hmay, hcons, hlevel⟩
  · have hle := hsuffix.length_le
    rw [length_levels, length_levels] at hle
    exact absurd hdeeper (Nat.not_lt.2 hle)
  · obtain ⟨hacc, hmax⟩ := mayEnter_iff.1 hmay
    obtain ⟨-, -, hgate, henabled, hpending, habove⟩ := acceptable_iff.1 hacc
    exact ⟨src, top, hmove, hcons, congrArg Fin.val hlevel, hlevel ▸ habove, hgate, henabled,
      hpending, hmax⟩

/-- Settles O16: a lower part of a nested stack is nested, an entry pushes a level above the running
one, and there are only two levels. -/
theorem handlersNestByRisingLevel : Obligations.HandlersNestByRisingLevel := by
  intro s t hs h
  have ht : t.nested := by
    rcases step_levels h with hsuffix | ⟨src, top, -, hmay, hcons, hlevel⟩
    · exact nested_iff_levels.2 ((nested_iff_levels.1 hs).sublist hsuffix.sublist)
    · obtain ⟨-, -, -, -, -, habove⟩ := acceptable_iff.1 (mayEnter_iff.1 hmay).1
      exact hs.cons (hlevel ▸ habove) hcons
  exact ⟨ht, ht.length_le⟩

end Sys2Proof.Machine

namespace Sys2Proof.Machine

/-! ### The power cycle (70_reset_and_hazards.md R341, 20_memory.md R98) -/

section
variable {s : State}

theorem flashAtLoss_erase {base : Nat} (hb : s.flBusy = true) (hop : s.flOp = some (.erase base)) :
    (flashAtLoss s).1 = s.mem.scramble base s.draws s.cfg.sectorSize := by
  unfold flashAtLoss; rw [hb, hop]

theorem flashAtLoss_program {a : Nat} {v : Byte} (hb : s.flBusy = true)
    (hop : s.flOp = some (.program a v)) :
    (flashAtLoss s).1 = s.mem.put a (Config.freeByte s.draws) := by
  unfold flashAtLoss; rw [hb, hop]

theorem step_power {rest : List Move} (hr : s.running = true) (hp : s.plan = .power :: rest) :
    step s = .next (powerCycle (s.withPlan rest)) :=
  step_move hr hp rfl

end

/-- Settles O59: the step is the power cycle, which resets around the memory that the loss leaves:
the scrambled sector of an erase in flight, the one byte put of a program, and else the old flash. -/
theorem powerCycleKeepsOnlyFlash : Obligations.PowerCycleKeepsOnlyFlash := by
  intro s rest hr hp
  refine ⟨_, (flashAtLoss s).1, (flashAtLoss s).2, step_power hr hp, rfl, flashAtLoss_idle,
    fun base hb hop => ?_, fun a v hb hop => ?_⟩
  · rw [flashAtLoss_erase hb hop]
    exact ⟨fun x => Memory.fresh_scramble_inside s.mem, fun x hx =>
      ⟨Memory.read_scramble_outside s.mem hx, Memory.fresh_scramble_outside s.mem hx⟩⟩
  · rw [flashAtLoss_program hb hop]
    exact ⟨Memory.fresh_put_same s.mem a _, fun x hx =>
      ⟨Memory.read_put_other s.mem _ hx, Memory.fresh_put_other s.mem _ hx⟩⟩

/-! ### The invariants at a launch (70_reset_and_hazards.md R342, 41_flash_store.md R142) -/

@[simp] theorem Memory.read_erased (a : Nat) : Memory.erased.read a = sentinel := rfl

@[simp] theorem Memory.fresh_erased (a : Nat) : Memory.erased.fresh a = true := rfl

section
variable (cfg : Params) (rom : List CmdWord)

/-- Every byte of erased flash reads 0xFF, fresh or not. -/
theorem launch_erased_freshErased : (State.launch cfg rom Memory.erased).freshErased :=
  fun a _ => Memory.read_erased a

theorem launch_erased_flashInRegion : (State.launch cfg rom Memory.erased).flashInRegion :=
  fun a _ => ⟨Memory.read_erased a, Memory.fresh_erased a⟩

variable (mem : Memory)

theorem launch_nested : (State.launch cfg rom mem).nested := List.Pairwise.nil

theorem launch_engineSound : (State.launch cfg rom mem).engineSound := engineSound_idle rfl rfl

theorem launch_promises : (State.launch cfg rom mem).promises :=
  ⟨nofun, ⟨nofun, nofun⟩, nofun, nofun⟩

theorem launch_ledSound : (State.launch cfg rom mem).ledSound :=
  (ledSound_lit rfl).2 ⟨rfl, litArm_ne_zero cfg.ledVariant⟩

end

theorem exampleParams_valid : exampleParams.valid = true := by decide

theorem defaultRom_exampleParams_fits : romFits (defaultRom exampleParams) = true := by decide

/-- The example launch lies in the domains of R8 and R9. -/
theorem exampleLaunch_valid :
    validLaunch exampleParams (defaultRom exampleParams) Memory.erased :=
  ⟨exampleParams_valid, defaultRom_exampleParams_fits, Memory.erased_wf,
    launch_erased_freshErased _ _, launch_erased_flashInRegion _ _⟩

/-- Settles O58: a launch executes main with no operation in flight, timer and lines idle and the LED
lit for its arm value, and erased flash is fresh and reads 0xFF. -/
theorem launchMeetsTheInvariants : Obligations.LaunchMeetsTheInvariants := by
  refine ⟨exampleLaunch_valid, rfl, ?_⟩
  rintro cfg rom s rfl
  obtain ⟨htimer, hline0, hline1⟩ := launch_promises cfg rom Memory.erased
  exact ⟨launch_nested cfg rom _, Memory.erased_wf, launch_erased_freshErased cfg rom,
    launch_engineSound cfg rom _, launch_erased_flashInRegion cfg rom, htimer, hline0, hline1,
    launch_ledSound cfg rom _⟩

end Sys2Proof.Machine
